-- ==== Sys2Proof/Word.lean ====
section
/-!
DEFINITION. The widths of data: byte, word, doubleword (`00_scope.md` glossary), and the operand width
of an instruction form (`00_scope.md` R10).
-/

namespace Sys2Proof

/-- 8 bits (R6). -/
abbrev Byte := BitVec 8

/-- 16 bits: what the manual calls a word (R6). -/
abbrev Word := BitVec 16

/-- 32 bits: what the manual calls a doubleword (R6). -/
abbrev Dword := BitVec 32

/-- The width of an operand: the `opsize` column 8, 16 or 32 of the opcode table (R10, R124). -/
inductive Width where
  | byte | word | dword
  deriving DecidableEq, Repr

/-- An operand's size in bytes (R87). -/
@[reducible] def Width.bytes : Width → Nat
  | .byte => 1
  | .word => 2
  | .dword => 4

/-- An operand's size in bits (R10). -/
@[reducible] def Width.bits : Width → Nat
  | .byte => 8
  | .word => 16
  | .dword => 32

end Sys2Proof
end

