-- ==== Sys2Proof/Syntax.lean ====
section
/-!
DEFINITION. The abstract syntax of the instruction set: prefixes, registers, operands, and `Instr`, the
rows of `spec/opcode_table.json`. Rows of one mnemonic under one numbered rule that differ only in the
operand form (the columns `operands` and `opsize`) are one constructor with that form as its argument,
as the tables of R243 and R300 and as R124 write them (log entry 1).
-/

namespace Sys2Proof

/-- A general register, by its 3-bit code 0 to 7 in this order (R34, R129). The constructor bears the
r32 name; with a word operand the code names the low half, with a byte operand AL, CL, DL, BL, AH, CH,
DH, BH. -/
inductive Reg where
  | eax | ecx | edx | ebx | esp | ebp | esi | edi
  deriving DecidableEq, Repr

/-- A segment register, by its code 0 to 5 in this order (R37). -/
inductive SReg where
  | es | cs | ss | ds | fs | gs
  deriving DecidableEq, Repr

/-- The prefixes of an instruction (R120, R121): operand size 66H, address size 67H (R123), and at most
one segment override (R122). -/
structure Prefixes where
  op32 : Bool
  addr32 : Bool
  seg : Option SReg
  deriving DecidableEq, Repr

/-- The operand-size attribute as the width of a word or doubleword form (R123, R124). -/
@[reducible] def Prefixes.opSize (p : Prefixes) : Width :=
  if p.op32 then .dword else .word

/-- The base part of a 16-bit addressing form, by its r/m code 0 to 7 (R131). -/
inductive Base16 where
  | bxsi | bxdi | bpsi | bpdi | si | di | bp | bx
  deriving DecidableEq, Repr

/-- The displacement of a 16-bit form: mod = 00, 01 or 10 (R131, R143). -/
inductive Disp16 where
  | none
  | d8 (v : Byte)
  | d16 (v : Word)
  deriving DecidableEq, Repr

/-- The displacement of a 32-bit form: mod = 00, 01 or 10 (R132, R133, R143). -/
inductive Disp32 where
  | none
  | d8 (v : Byte)
  | d32 (v : Dword)
  deriving DecidableEq, Repr

/-- The scale of an index: the ss field 0 to 3 (R133). -/
inductive Scale where
  | x1 | x2 | x4 | x8
  deriving DecidableEq, Repr

/-- A memory operand of a ModR/M byte (R131 to R133). -/
inductive Mem where
  /-- 16-bit form with base registers (R131). -/
  | base16 (b : Base16) (disp : Disp16)
  /-- 16-bit form, disp16 alone: mod = 00, r/m = 110 (R131). -/
  | abs16 (disp : Word)
  /-- 32-bit form without SIB (R132). -/
  | base32 (b : Reg) (disp : Disp32)
  /-- 32-bit form, disp32 alone: mod = 00, r/m = 101 (R132). -/
  | abs32 (disp : Dword)
  /-- SIB form with a base register; `idx = none` is index code 100, whose ss bits are ignored (R133). -/
  | sib (b : Reg) (idx : Option Reg) (ss : Scale) (disp : Disp32)
  /-- SIB form with no base: base = 101 with mod = 00 (R133). -/
  | sibAbs (idx : Option Reg) (ss : Scale) (disp : Dword)
  deriving DecidableEq, Repr

/-- The r/m operand: a register when mod = 11, else a memory operand (R130, R137). -/
inductive RM where
  | reg (r : Reg)
  | mem (m : Mem)
  deriving DecidableEq, Repr

/-- The offset of a moffs operand, of AddressSize bits (R136). -/
inductive Moffs where
  | o16 (v : Word)
  | o32 (v : Dword)
  deriving DecidableEq, Repr

/-- The forms of a two-operand ALU instruction: the rows of the table of R243, with the width. -/
inductive AluForm where
  /-- `op AL,imm8`, `op AX,imm16`, `op EAX,imm32`: `base+4`, `base+5`. -/
  | accImm (w : Width) (imm : BitVec w.bits)
  /-- `op r/m,imm`: `80 /n`, `81 /n`. -/
  | rmImm (w : Width) (rm : RM) (imm : BitVec w.bits)
  /-- `op r/m16,imm8`, `op r/m32,imm8`: `83 /n ib`, sign-extended (R242). -/
  | rmImm8 (w : Width) (rm : RM) (imm : Byte)
  /-- `op r/m,r`: `base+0 /r`, `base+1 /r`. -/
  | rmReg (w : Width) (rm : RM) (r : Reg)
  /-- `op r,r/m`: `base+2 /r`, `base+3 /r`. -/
  | regRm (w : Width) (r : Reg) (rm : RM)
  deriving DecidableEq, Repr

/-- The forms of TEST (R284). -/
inductive TestForm where
  /-- `TEST AL,imm8`, `TEST AX,imm16`, `TEST EAX,imm32`: `A8 ib`, `A9 iw/id`. -/
  | accImm (w : Width) (imm : BitVec w.bits)
  /-- `TEST r/m,imm`: `F6 /0`, `F7 /0`. -/
  | rmImm (w : Width) (rm : RM) (imm : BitVec w.bits)
  /-- `TEST r/m,r`: `84 /r`, `85 /r`. -/
  | rmReg (w : Width) (rm : RM) (r : Reg)
  deriving DecidableEq, Repr

/-- The count operand of a shift or rotate (R300). -/
inductive Count where
  | one
  | cl
  | imm (n : Byte)
  deriving DecidableEq, Repr

/-- The displacement of a relative transfer: `cb`, `cw`, `cd` (R144, R321). -/
inductive Rel where
  | rel8 (v : Byte)
  | rel16 (v : Word)
  | rel32 (v : Dword)
  deriving DecidableEq, Repr

/-- The instructions: the rows of `spec/opcode_table.json`. -/
inductive Instr where
  /-- ADD (R244), in the forms of R243. -/
  | add (p : Prefixes) (f : AluForm)
  /-- OR (R282), in the forms of R243. -/
  | or (p : Prefixes) (f : AluForm)
  /-- ADC (R245), in the forms of R243. -/
  | adc (p : Prefixes) (f : AluForm)
  /-- SBB (R247), in the forms of R243. -/
  | sbb (p : Prefixes) (f : AluForm)
  /-- AND (R281), in the forms of R243. -/
  | and (p : Prefixes) (f : AluForm)
  /-- SUB (R246), in the forms of R243. -/
  | sub (p : Prefixes) (f : AluForm)
  /-- XOR (R283), in the forms of R243. -/
  | xor (p : Prefixes) (f : AluForm)
  /-- CMP (R250), in the forms of R243. -/
  | cmp (p : Prefixes) (f : AluForm)
  /-- TEST (R284). -/
  | test (p : Prefixes) (f : TestForm)
  /-- NOT (R280): `F6 /2`, `F7 /2`. -/
  | not (p : Prefixes) (w : Width) (rm : RM)
  /-- NEG (R251): `F6 /3`, `F7 /3`. -/
  | neg (p : Prefixes) (w : Width) (rm : RM)
  /-- MUL (R252): `F6 /4`, `F7 /4`. -/
  | mul (p : Prefixes) (w : Width) (rm : RM)
  /-- IMUL (R253): one operand, `F6 /5`, `F7 /5`. -/
  | imulAcc (p : Prefixes) (w : Width) (rm : RM)
  /-- DIV (R258): `F6 /6`, `F7 /6`. -/
  | div (p : Prefixes) (w : Width) (rm : RM)
  /-- IDIV (R259): `F6 /7`, `F7 /7`. -/
  | idiv (p : Prefixes) (w : Width) (rm : RM)
  /-- IMUL r,r/m (R254): `0F AF /r`. -/
  | imulRRm (p : Prefixes) (r : Reg) (rm : RM)
  /-- IMUL r,r/m,imm8 and its spelling IMUL r,imm8 (R255): `6B /r ib`. -/
  | imulRRmImm8 (p : Prefixes) (r : Reg) (rm : RM) (imm : Byte)
  /-- IMUL r,r/m,imm16/imm32 and its spelling IMUL r,imm (R256): `69 /r iw/id`. -/
  | imulRRmImm (p : Prefixes) (w : Width) (r : Reg) (rm : RM) (imm : BitVec w.bits)
  /-- INC r/m (R248): `FE /0`, `FF /0`. -/
  | incRm (p : Prefixes) (w : Width) (rm : RM)
  /-- INC r16/r32 (R248): `40+r`. -/
  | incR (p : Prefixes) (r : Reg)
  /-- DEC r/m (R249): `FE /1`, `FF /1`. -/
  | decRm (p : Prefixes) (w : Width) (rm : RM)
  /-- DEC r16/r32 (R249): `48+r`. -/
  | decR (p : Prefixes) (r : Reg)
  /-- BT r/m,r (R285): `0F A3 /r`. -/
  | btRmR (p : Prefixes) (rm : RM) (r : Reg)
  /-- BT r/m,imm8 (R286): `0F BA /4 ib`. -/
  | btRmImm (p : Prefixes) (rm : RM) (imm : Byte)
  /-- ROL (R305): `C0`, `C1`, `D0` to `D3` with `/0`. -/
  | rol (p : Prefixes) (w : Width) (rm : RM) (n : Count)
  /-- ROR (R306): `C0`, `C1`, `D0` to `D3` with `/1`. -/
  | ror (p : Prefixes) (w : Width) (rm : RM) (n : Count)
  /-- RCL (R307): `C0`, `C1`, `D0` to `D3` with `/2`. -/
  | rcl (p : Prefixes) (w : Width) (rm : RM) (n : Count)
  /-- RCR (R308): `C0`, `C1`, `D0` to `D3` with `/3`. -/
  | rcr (p : Prefixes) (w : Width) (rm : RM) (n : Count)
  /-- SAL (R301): `C0`, `C1`, `D0` to `D3` with `/4`. -/
  | sal (p : Prefixes) (w : Width) (rm : RM) (n : Count)
  /-- SHL (R301): `C0`, `C1`, `D0` to `D3` with `/4`. Another name of SAL's encodings (R154). -/
  | shl (p : Prefixes) (w : Width) (rm : RM) (n : Count)
  /-- SHR (R302): `C0`, `C1`, `D0` to `D3` with `/5`. -/
  | shr (p : Prefixes) (w : Width) (rm : RM) (n : Count)
  /-- SAR (R303): `C0`, `C1`, `D0` to `D3` with `/7`. -/
  | sar (p : Prefixes) (w : Width) (rm : RM) (n : Count)
  /-- MOV r/m,r (R200): `88 /r`, `89 /r`. -/
  | movRmR (p : Prefixes) (w : Width) (rm : RM) (r : Reg)
  /-- MOV r,r/m (R201): `8A /r`, `8B /r`. -/
  | movRRm (p : Prefixes) (w : Width) (r : Reg) (rm : RM)
  /-- MOV r/m16,Sreg (R202): `8C /r`. -/
  | movRmSreg (p : Prefixes) (rm : RM) (sr : SReg)
  /-- MOV Sreg,r/m16 (R203): `8E /r`. -/
  | movSregRm (p : Prefixes) (sr : SReg) (rm : RM)
  /-- MOV accumulator,moffs (R204): `A0`, `A1`. -/
  | movAccMoffs (p : Prefixes) (w : Width) (off : Moffs)
  /-- MOV moffs,accumulator (R205): `A2`, `A3`. -/
  | movMoffsAcc (p : Prefixes) (w : Width) (off : Moffs)
  /-- MOV reg,imm (R206): `B0+rb ib`, `B8+rw iw`, `B8+rd id`. -/
  | movRImm (p : Prefixes) (w : Width) (r : Reg) (imm : BitVec w.bits)
  /-- MOV r/m,imm (R207): `C6 /0 ib`, `C7 /0 iw/id`. -/
  | movRmImm (p : Prefixes) (w : Width) (rm : RM) (imm : BitVec w.bits)
  /-- XCHG accumulator,register, either operand order (R208): `90+r`, r not 0. -/
  | xchgAcc (p : Prefixes) (r : Reg)
  /-- XCHG r/m,r, either operand order (R209): `86 /r`, `87 /r`. -/
  | xchgRmR (p : Prefixes) (w : Width) (rm : RM) (r : Reg)
  /-- PUSH m16/m32 and, with mod = 11, its register form (R210, R158): `FF /6`. -/
  | pushRm (p : Prefixes) (rm : RM)
  /-- PUSH r16/r32 (R211): `50+r`. -/
  | pushR (p : Prefixes) (r : Reg)
  /-- PUSH imm16/imm32 (R212): `68 iw/id`. -/
  | pushImm (p : Prefixes) (w : Width) (imm : BitVec w.bits)
  /-- PUSH Sreg (R213): `0E`, `16`, `1E`, `06`, `0F A0`, `0F A8`. -/
  | pushSreg (p : Prefixes) (sr : SReg)
  /-- POP m16/m32 and, with mod = 11, its register form (R214, R158): `8F /0`. -/
  | popRm (p : Prefixes) (rm : RM)
  /-- POP r16/r32 (R215): `58+r`. -/
  | popR (p : Prefixes) (r : Reg)
  /-- POP Sreg (R216): `1F`, `07`, `17`, `0F A1`, `0F A9`. -/
  | popSreg (p : Prefixes) (sr : SReg)
  /-- MOVSX r16/r32,r/m8 (R217): `0F BE /r`. -/
  | movsx8 (p : Prefixes) (r : Reg) (rm : RM)
  /-- MOVSX r32,r/m16 (R217): `0F BF /r`, OperandSize 32 only. -/
  | movsx16 (p : Prefixes) (r : Reg) (rm : RM)
  /-- MOVZX r16/r32,r/m8 (R218): `0F B6 /r`. -/
  | movzx8 (p : Prefixes) (r : Reg) (rm : RM)
  /-- MOVZX r32,r/m16 (R218): `0F B7 /r`, OperandSize 32 only. -/
  | movzx16 (p : Prefixes) (r : Reg) (rm : RM)
  /-- CWD (R219): `99` with OperandSize 16. -/
  | cwd (p : Prefixes)
  /-- CDQ (R220): `99` with OperandSize 32. -/
  | cdq (p : Prefixes)
  /-- JO (R320, R322, R323): `70 cb`, `0F 80 cw/cd`. -/
  | jo (p : Prefixes) (t : Rel)
  /-- JNO (R320, R322, R323): `71 cb`, `0F 81 cw/cd`. -/
  | jno (p : Prefixes) (t : Rel)
  /-- JB (R320, R322, R323): `72 cb`, `0F 82 cw/cd`. -/
  | jb (p : Prefixes) (t : Rel)
  /-- JC (R320, R322, R323): `72 cb`, `0F 82 cw/cd`. Another name of JB (R154). -/
  | jc (p : Prefixes) (t : Rel)
  /-- JNAE (R320, R322, R323): `72 cb`, `0F 82 cw/cd`. Another name of JB (R154). -/
  | jnae (p : Prefixes) (t : Rel)
  /-- JAE (R320, R322, R323): `73 cb`, `0F 83 cw/cd`. -/
  | jae (p : Prefixes) (t : Rel)
  /-- JNB (R320, R322, R323): `73 cb`, `0F 83 cw/cd`. Another name of JAE (R154). -/
  | jnb (p : Prefixes) (t : Rel)
  /-- JNC (R320, R322, R323): `73 cb`, `0F 83 cw/cd`. Another name of JAE (R154). -/
  | jnc (p : Prefixes) (t : Rel)
  /-- JE (R320, R322, R323): `74 cb`, `0F 84 cw/cd`. -/
  | je (p : Prefixes) (t : Rel)
  /-- JZ (R320, R322, R323): `74 cb`, `0F 84 cw/cd`. Another name of JE (R154). -/
  | jz (p : Prefixes) (t : Rel)
  /-- JNE (R320, R322, R323): `75 cb`, `0F 85 cw/cd`. -/
  | jne (p : Prefixes) (t : Rel)
  /-- JNZ (R320, R322, R323): `75 cb`, `0F 85 cw/cd`. Another name of JNE (R154). -/
  | jnz (p : Prefixes) (t : Rel)
  /-- JBE (R320, R322, R323): `76 cb`, `0F 86 cw/cd`. -/
  | jbe (p : Prefixes) (t : Rel)
  /-- JNA (R320, R322, R323): `76 cb`, `0F 86 cw/cd`. Another name of JBE (R154). -/
  | jna (p : Prefixes) (t : Rel)
  /-- JA (R320, R322, R323): `77 cb`, `0F 87 cw/cd`. -/
  | ja (p : Prefixes) (t : Rel)
  /-- JNBE (R320, R322, R323): `77 cb`, `0F 87 cw/cd`. Another name of JA (R154). -/
  | jnbe (p : Prefixes) (t : Rel)
  /-- JS (R320, R322, R323): `78 cb`, `0F 88 cw/cd`. -/
  | js (p : Prefixes) (t : Rel)
  /-- JNS (R320, R322, R323): `79 cb`, `0F 89 cw/cd`. -/
  | jns (p : Prefixes) (t : Rel)
  /-- JP (R320, R322, R323): `7A cb`, `0F 8A cw/cd`. -/
  | jp (p : Prefixes) (t : Rel)
  /-- JPE (R320, R322, R323): `7A cb`, `0F 8A cw/cd`. Another name of JP (R154). -/
  | jpe (p : Prefixes) (t : Rel)
  /-- JNP (R320, R322, R323): `7B cb`, `0F 8B cw/cd`. -/
  | jnp (p : Prefixes) (t : Rel)
  /-- JPO (R320, R322, R323): `7B cb`, `0F 8B cw/cd`. Another name of JNP (R154). -/
  | jpo (p : Prefixes) (t : Rel)
  /-- JL (R320, R322, R323): `7C cb`, `0F 8C cw/cd`. -/
  | jl (p : Prefixes) (t : Rel)
  /-- JNGE (R320, R322, R323): `7C cb`, `0F 8C cw/cd`. Another name of JL (R154). -/
  | jnge (p : Prefixes) (t : Rel)
  /-- JGE (R320, R322, R323): `7D cb`, `0F 8D cw/cd`. -/
  | jge (p : Prefixes) (t : Rel)
  /-- JNL (R320, R322, R323): `7D cb`, `0F 8D cw/cd`. Another name of JGE (R154). -/
  | jnl (p : Prefixes) (t : Rel)
  /-- JLE (R320, R322, R323): `7E cb`, `0F 8E cw/cd`. -/
  | jle (p : Prefixes) (t : Rel)
  /-- JNG (R320, R322, R323): `7E cb`, `0F 8E cw/cd`. Another name of JLE (R154). -/
  | jng (p : Prefixes) (t : Rel)
  /-- JG (R320, R322, R323): `7F cb`, `0F 8F cw/cd`. -/
  | jg (p : Prefixes) (t : Rel)
  /-- JNLE (R320, R322, R323): `7F cb`, `0F 8F cw/cd`. Another name of JG (R154). -/
  | jnle (p : Prefixes) (t : Rel)
  /-- JMP rel8, rel16, rel32 (R324, R325): `EB cb`, `E9 cw/cd`. -/
  | jmpRel (p : Prefixes) (t : Rel)
  /-- JMP r/m16 (R326): `FF /4`. -/
  | jmpRm (p : Prefixes) (rm : RM)
  /-- JMP ptr16:16 (R327): `EA cd`. -/
  | jmpPtr (p : Prefixes) (sel off : Word)
  /-- JMP m16:16 (R328): `FF /5`. -/
  | jmpMem (p : Prefixes) (m : Mem)
  /-- CALL rel16 (R329): `E8 cw`. -/
  | callRel (p : Prefixes) (rel : Word)
  /-- CALL r/m16 (R330): `FF /2`. -/
  | callRm (p : Prefixes) (rm : RM)
  /-- CALL ptr16:16 (R331): `9A cd`. -/
  | callPtr (p : Prefixes) (sel off : Word)
  /-- CALL m16:16 (R332): `FF /3`. -/
  | callMem (p : Prefixes) (m : Mem)
  /-- RET far (R333): `CB`. -/
  | retFar (p : Prefixes)
  /-- RET imm16 far (R337): `CA iw`. -/
  | retFarImm (p : Prefixes) (n : Word)
  /-- RET near (R334): `C3`. -/
  | retNear (p : Prefixes)
  /-- RET imm16 near (R335): `C2 iw`. -/
  | retNearImm (p : Prefixes) (n : Word)
  /-- IRET (R336): `CF`. -/
  | iret (p : Prefixes)
  /-- STC (R360): `F9`. -/
  | stc (p : Prefixes)
  /-- CLC (R361): `F8`. -/
  | clc (p : Prefixes)
  /-- CMC (R362): `F5`. -/
  | cmc (p : Prefixes)
  /-- CLI (R363): `FA`. -/
  | cli (p : Prefixes)
  /-- STI (R364): `FB`. -/
  | sti (p : Prefixes)
  /-- IN AL/AX/EAX,imm8 (R365): `E4 ib`, `E5 ib`. -/
  | inImm (p : Prefixes) (w : Width) (port : Byte)
  /-- IN AL/AX/EAX,DX (R366): `EC`, `ED`. -/
  | inDx (p : Prefixes) (w : Width)
  /-- OUT imm8,AL/AX/EAX (R367): `E6 ib`, `E7 ib`. -/
  | outImm (p : Prefixes) (w : Width) (port : Byte)
  /-- OUT DX,AL/AX/EAX (R368): `EE`, `EF`. -/
  | outDx (p : Prefixes) (w : Width)
  /-- LEA r16/r32,m (R370): `8D /r`; with mod = 11 it raises Interrupt 6 (R158). -/
  | lea (p : Prefixes) (r : Reg) (rm : RM)
  /-- NOP (R371): `90`. -/
  | nop (p : Prefixes)
  deriving DecidableEq, Repr

end Sys2Proof
end

