-- ==== Sys2Proof/WellFormed.lean ====
section
/-!
DEFINITION. Which terms of `Instr` are instructions of the subset: the operand size of a form is the one
its prefixes give, the addressing form is of the address size, and the operands are ones the encoding can
hold. `Tests/Slice0.lean` shows a term each check refuses.
-/

namespace Sys2Proof

/-- A byte form takes any operand size; a word or doubleword form takes its own (R124). -/
def Prefixes.admits (p : Prefixes) (w : Width) : Bool :=
  decide (w = .byte) || decide (w = p.opSize)

/-- A form with a word row and a doubleword row and no byte row (R124). -/
def Prefixes.admitsWide (p : Prefixes) (w : Width) : Bool :=
  decide (w = p.opSize)

/-- A form listed for OperandSize 16 only (R159, R202, R203). -/
def Prefixes.only16 (p : Prefixes) : Bool := !p.op32

/-- A form listed for OperandSize 32 only (R217, R218). -/
def Prefixes.only32 (p : Prefixes) : Bool := p.op32

/-- A memory operand the ModR/M and SIB bytes can hold under this address size (R131 to R133): the 16-bit
forms need AddressSize 16, the others 32; `[BP]` and `[EBP]` need a displacement; ESP is a base only
through a SIB byte, and never an index. -/
def Mem.wf (addr32 : Bool) : Mem → Bool
  | .base16 b disp => !addr32 && !(decide (b = .bp) && decide (disp = .none))
  | .abs16 _ => !addr32
  | .base32 b disp => addr32 && !decide (b = .esp) && !(decide (b = .ebp) && decide (disp = .none))
  | .abs32 _ => addr32
  | .sib b idx _ disp =>
    addr32 && !decide (idx = some .esp) && !(decide (b = .ebp) && decide (disp = .none))
  | .sibAbs idx _ _ => addr32 && !decide (idx = some .esp)

/-- An r/m operand under these prefixes (R130, R137). -/
def RM.wf (p : Prefixes) : RM → Bool
  | .reg _ => true
  | .mem m => m.wf p.addr32

/-- A moffs offset has AddressSize bits (R136). -/
def Moffs.wf (p : Prefixes) : Moffs → Bool
  | .o16 _ => !p.addr32
  | .o32 _ => p.addr32

/-- rel16 goes with OperandSize 16, rel32 with OperandSize 32, rel8 with either (R144, R323, R325). -/
def Rel.wf (p : Prefixes) : Rel → Bool
  | .rel8 _ => true
  | .rel16 _ => !p.op32
  | .rel32 _ => p.op32

/-- The forms of R243 under these prefixes; `83 /n` has no byte row. -/
def AluForm.wf (p : Prefixes) : AluForm → Bool
  | .accImm w _ => p.admits w
  | .rmImm w rm _ => p.admits w && rm.wf p
  | .rmImm8 w rm _ => p.admitsWide w && rm.wf p
  | .rmReg w rm _ => p.admits w && rm.wf p
  | .regRm w _ rm => p.admits w && rm.wf p

/-- The forms of R284 under these prefixes. -/
def TestForm.wf (p : Prefixes) : TestForm → Bool
  | .accImm w _ => p.admits w
  | .rmImm w rm _ => p.admits w && rm.wf p
  | .rmReg w rm _ => p.admits w && rm.wf p

/-- A term of `Instr` that is an instruction of the subset. -/
def Instr.wf : Instr → Bool
  | .add p f => f.wf p
  | .or p f => f.wf p
  | .adc p f => f.wf p
  | .sbb p f => f.wf p
  | .and p f => f.wf p
  | .sub p f => f.wf p
  | .xor p f => f.wf p
  | .cmp p f => f.wf p
  | .test p f => f.wf p
  | .not p w rm => p.admits w && rm.wf p
  | .neg p w rm => p.admits w && rm.wf p
  | .mul p w rm => p.admits w && rm.wf p
  | .imulAcc p w rm => p.admits w && rm.wf p
  | .div p w rm => p.admits w && rm.wf p
  | .idiv p w rm => p.admits w && rm.wf p
  | .imulRRm p _ rm => rm.wf p
  | .imulRRmImm8 p _ rm _ => rm.wf p
  | .imulRRmImm p w _ rm _ => p.admitsWide w && rm.wf p
  | .incRm p w rm => p.admits w && rm.wf p
  | .incR _ _ => true
  | .decRm p w rm => p.admits w && rm.wf p
  | .decR _ _ => true
  | .btRmR p rm _ => rm.wf p
  | .btRmImm p rm _ => rm.wf p
  | .rol p w rm _ => p.admits w && rm.wf p
  | .ror p w rm _ => p.admits w && rm.wf p
  | .rcl p w rm _ => p.admits w && rm.wf p
  | .rcr p w rm _ => p.admits w && rm.wf p
  | .sal p w rm _ => p.admits w && rm.wf p
  | .shl p w rm _ => p.admits w && rm.wf p
  | .shr p w rm _ => p.admits w && rm.wf p
  | .sar p w rm _ => p.admits w && rm.wf p
  | .movRmR p w rm _ => p.admits w && rm.wf p
  | .movRRm p w _ rm => p.admits w && rm.wf p
  | .movRmSreg p rm _ => p.only16 && rm.wf p
  | .movSregRm p sr rm => p.only16 && !decide (sr = .cs) && rm.wf p
  | .movAccMoffs p w off => p.admits w && off.wf p
  | .movMoffsAcc p w off => p.admits w && off.wf p
  | .movRImm p w _ _ => p.admits w
  | .movRmImm p w rm _ => p.admits w && rm.wf p
  | .xchgAcc _ r => !decide (r = .eax)
  | .xchgRmR p w rm _ => p.admits w && rm.wf p
  | .pushRm p rm => rm.wf p
  | .pushR _ _ => true
  | .pushImm p w _ => p.admitsWide w
  | .pushSreg _ _ => true
  | .popRm p rm => rm.wf p
  | .popR _ _ => true
  | .popSreg _ sr => !decide (sr = .cs)
  | .movsx8 p _ rm => rm.wf p
  | .movsx16 p _ rm => p.only32 && rm.wf p
  | .movzx8 p _ rm => rm.wf p
  | .movzx16 p _ rm => p.only32 && rm.wf p
  | .cwd p => p.only16
  | .cdq p => p.only32
  | .jo p t => t.wf p
  | .jno p t => t.wf p
  | .jb p t => t.wf p
  | .jc p t => t.wf p
  | .jnae p t => t.wf p
  | .jae p t => t.wf p
  | .jnb p t => t.wf p
  | .jnc p t => t.wf p
  | .je p t => t.wf p
  | .jz p t => t.wf p
  | .jne p t => t.wf p
  | .jnz p t => t.wf p
  | .jbe p t => t.wf p
  | .jna p t => t.wf p
  | .ja p t => t.wf p
  | .jnbe p t => t.wf p
  | .js p t => t.wf p
  | .jns p t => t.wf p
  | .jp p t => t.wf p
  | .jpe p t => t.wf p
  | .jnp p t => t.wf p
  | .jpo p t => t.wf p
  | .jl p t => t.wf p
  | .jnge p t => t.wf p
  | .jge p t => t.wf p
  | .jnl p t => t.wf p
  | .jle p t => t.wf p
  | .jng p t => t.wf p
  | .jg p t => t.wf p
  | .jnle p t => t.wf p
  | .jmpRel p t => t.wf p
  | .jmpRm p rm => p.only16 && rm.wf p
  | .jmpPtr p _ _ => p.only16
  | .jmpMem p m => p.only16 && m.wf p.addr32
  | .callRel p _ => p.only16
  | .callRm p rm => p.only16 && rm.wf p
  | .callPtr p _ _ => p.only16
  | .callMem p m => p.only16 && m.wf p.addr32
  | .retFar p => p.only16
  | .retFarImm p _ => p.only16
  | .retNear p => p.only16
  | .retNearImm p _ => p.only16
  | .iret p => p.only16
  | .stc _ => true
  | .clc _ => true
  | .cmc _ => true
  | .cli _ => true
  | .sti _ => true
  | .inImm p w _ => p.admits w
  | .inDx p w => p.admits w
  | .outImm p w _ => p.admits w
  | .outDx p w => p.admits w
  | .lea p _ rm => rm.wf p
  | .nop _ => true

/-- `i` is an instruction of the subset. -/
abbrev Instr.WellFormed (i : Instr) : Prop := i.wf = true

/-- The instruction a term names: a term under an alias mnemonic names the same instruction as the term
under the mnemonic that the table lists first (R154, R320). -/
def Instr.core : Instr → Instr
  | .shl p w rm n => .sal p w rm n
  | .jc p t => .jb p t
  | .jnae p t => .jb p t
  | .jnb p t => .jae p t
  | .jnc p t => .jae p t
  | .jz p t => .je p t
  | .jnz p t => .jne p t
  | .jna p t => .jbe p t
  | .jnbe p t => .ja p t
  | .jpe p t => .jp p t
  | .jpo p t => .jnp p t
  | .jnge p t => .jl p t
  | .jnl p t => .jge p t
  | .jng p t => .jle p t
  | .jnle p t => .jg p t
  | i => i

end Sys2Proof
end

