-- ==== Sys2Proof/Decode.lean ====
section
/-!
DEFINITION. From bytes to instructions (`decode`, total, refusing by name) and from instructions to bytes
(`encode`), both written from the encoding tables of `30_encoding.md`.
-/

namespace Sys2Proof

/-- Why some bytes are no instruction of the subset. -/
inductive DecodeError where
  /-- The bytes end before the instruction does. -/
  | needMore
  /-- U7: a prefix kind twice, two segment overrides, or F0H, F2H, F3H (R121). -/
  | badPrefix
  /-- U5: no row of the document (R155). -/
  | undefinedOpcode
  /-- U6: segment-register code 6 or 7, or MOV to CS (R157). -/
  | badSreg
  /-- U6: `FF /3` or `FF /5` with mod = 11 (R158). -/
  | farIndirectRegister
  /-- U8: 66H before MOV Sreg, `8C` or `8E` (R121). -/
  | opsizeOnMovSreg
  /-- U4: 66H before a control transfer listed for OperandSize 16 only (R159). -/
  | opsize32ControlTransfer
  deriving DecidableEq, Repr

/-- A parser's answer: what it read and the bytes that follow. -/
abbrev Parsed (α : Type) : Type := Except DecodeError (α × List Byte)

/-- Reads on from where `x` stopped. -/
def andThen {α β : Type} (x : Parsed α) (f : α → List Byte → Parsed β) : Parsed β :=
  match x with
  | .ok (a, t) => f a t
  | .error e => .error e

/-! ## Codes -/

/-- The 3-bit code of a register (R34, R129). -/
def Reg.code : Reg → BitVec 3
  | .eax => 0 | .ecx => 1 | .edx => 2 | .ebx => 3 | .esp => 4 | .ebp => 5 | .esi => 6 | .edi => 7

/-- The register with a 3-bit code (R34, R129). -/
def Reg.ofCode (c : BitVec 3) : Reg :=
  match c.toNat with
  | 0 => .eax | 1 => .ecx | 2 => .edx | 3 => .ebx | 4 => .esp | 5 => .ebp | 6 => .esi | _ => .edi

/-- The 3-bit code of a segment register (R37). -/
def SReg.code : SReg → BitVec 3
  | .es => 0 | .cs => 1 | .ss => 2 | .ds => 3 | .fs => 4 | .gs => 5

/-- The segment register with a 3-bit code; 6 and 7 name none (R37, R157). -/
def SReg.ofCode? (c : BitVec 3) : Option SReg :=
  match c.toNat with
  | 0 => some .es | 1 => some .cs | 2 => some .ss | 3 => some .ds | 4 => some .fs | 5 => some .gs
  | _ => none

/-- The byte of a segment override (R122). -/
def SReg.prefixByte : SReg → Byte
  | .cs => 0x2E | .ss => 0x36 | .ds => 0x3E | .es => 0x26 | .fs => 0x64 | .gs => 0x65

/-- The segment register a segment-override byte names (R122). -/
def SReg.ofPrefixByte? (b : Byte) : Option SReg :=
  match b.toNat with
  | 0x2E => some .cs | 0x36 => some .ss | 0x3E => some .ds
  | 0x26 => some .es | 0x64 => some .fs | 0x65 => some .gs
  | _ => none

/-- The r/m code of a 16-bit base (R131). -/
def Base16.code : Base16 → BitVec 3
  | .bxsi => 0 | .bxdi => 1 | .bpsi => 2 | .bpdi => 3 | .si => 4 | .di => 5 | .bp => 6 | .bx => 7

/-- The 16-bit base with an r/m code (R131). -/
def Base16.ofCode (c : BitVec 3) : Base16 :=
  match c.toNat with
  | 0 => .bxsi | 1 => .bxdi | 2 => .bpsi | 3 => .bpdi | 4 => .si | 5 => .di | 6 => .bp | _ => .bx

/-- The ss field of a scale (R133). -/
def Scale.code : Scale → BitVec 2
  | .x1 => 0 | .x2 => 1 | .x4 => 2 | .x8 => 3

/-- The scale with an ss field (R133). -/
def Scale.ofCode (c : BitVec 2) : Scale :=
  match c.toNat with
  | 0 => .x1 | 1 => .x2 | 2 => .x4 | _ => .x8

/-! ## Little-endian fields (R84, R141) -/

/-- The bytes of a word, low-order byte first. -/
def wordBytes (v : Word) : List Byte :=
  [v.extractLsb' 0 8, v.extractLsb' 8 8]

/-- The bytes of a doubleword, low-order byte first. -/
def dwordBytes (v : Dword) : List Byte :=
  [v.extractLsb' 0 8, v.extractLsb' 8 8, v.extractLsb' 16 8, v.extractLsb' 24 8]

/-- The bytes of an operand of width `w`, low-order byte first. -/
def leBytes : (w : Width) → BitVec w.bits → List Byte
  | .byte, v => [v]
  | .word, v => wordBytes v
  | .dword, v => dwordBytes v

def takeByte : List Byte → Parsed Byte
  | b :: t => .ok (b, t)
  | [] => .error .needMore

def takeWord : List Byte → Parsed Word
  | b0 :: b1 :: t => .ok (b1 ++ b0, t)
  | _ => .error .needMore

def takeDword : List Byte → Parsed Dword
  | b0 :: b1 :: b2 :: b3 :: t => .ok (b3 ++ b2 ++ b1 ++ b0, t)
  | _ => .error .needMore

/-- An immediate of width `w`: `ib`, `iw` or `id` (R141). -/
def takeImm : (w : Width) → List Byte → Parsed (BitVec w.bits)
  | .byte, t => takeByte t
  | .word, t => takeWord t
  | .dword, t => takeDword t

/-- A moffs offset, of AddressSize bits (R136). -/
def takeMoffs (p : Prefixes) (t : List Byte) : Parsed Moffs :=
  if p.addr32 then andThen (takeDword t) fun v t => .ok (.o32 v, t)
  else andThen (takeWord t) fun v t => .ok (.o16 v, t)

def Moffs.bytes : Moffs → List Byte
  | .o16 v => wordBytes v
  | .o32 v => dwordBytes v

/-- A `cw`/`cd` code offset, of OperandSize bits (R144). -/
def takeRel (p : Prefixes) (t : List Byte) : Parsed Rel :=
  if p.op32 then andThen (takeDword t) fun v t => .ok (.rel32 v, t)
  else andThen (takeWord t) fun v t => .ok (.rel16 v, t)

/-- A `cb` code offset (R144). -/
def takeRel8 (t : List Byte) : Parsed Rel :=
  andThen (takeByte t) fun v t => .ok (.rel8 v, t)

/-! ## ModR/M and SIB (R128 to R133) -/

/-- A byte of fields 2, 3 and 3 bits wide: ModR/M and SIB (R128). -/
def fieldByte (hi : BitVec 2) (mid lo : BitVec 3) : Byte := hi ++ mid ++ lo

/-- The displacement that mod = 00, 01, 10 call for with 16-bit addressing (R131). -/
def takeDisp16 (mode : BitVec 2) (t : List Byte) : Parsed Disp16 :=
  match mode.toNat with
  | 0 => .ok (.none, t)
  | 1 => andThen (takeByte t) fun v t => .ok (.d8 v, t)
  | _ => andThen (takeWord t) fun v t => .ok (.d16 v, t)

/-- The displacement that mod = 00, 01, 10 call for with 32-bit addressing (R132, R133). -/
def takeDisp32 (mode : BitVec 2) (t : List Byte) : Parsed Disp32 :=
  match mode.toNat with
  | 0 => .ok (.none, t)
  | 1 => andThen (takeByte t) fun v t => .ok (.d8 v, t)
  | _ => andThen (takeDword t) fun v t => .ok (.d32 v, t)

def Disp16.mode : Disp16 → BitVec 2
  | .none => 0 | .d8 _ => 1 | .d16 _ => 2

def Disp16.bytes : Disp16 → List Byte
  | .none => [] | .d8 v => [v] | .d16 v => wordBytes v

def Disp32.mode : Disp32 → BitVec 2
  | .none => 0 | .d8 _ => 1 | .d32 _ => 2

def Disp32.bytes : Disp32 → List Byte
  | .none => [] | .d8 v => [v] | .d32 v => dwordBytes v

/-- A 16-bit memory operand: mod is 00, 01 or 10 (R131). -/
def takeMem16 (mode : BitVec 2) (rm : BitVec 3) (t : List Byte) : Parsed Mem :=
  if mode = 0 ∧ rm = 6 then andThen (takeWord t) fun v t => .ok (.abs16 v, t)
  else andThen (takeDisp16 mode t) fun disp t => .ok (.base16 (Base16.ofCode rm) disp, t)

/-- The index of a SIB byte: code 100 is none (R133). -/
def sibIndex (c : BitVec 3) : Option Reg :=
  if c = 4 then none else some (Reg.ofCode c)

def sibIndexCode : Option Reg → BitVec 3
  | none => 4
  | some r => r.code

/-- The SIB byte and the displacement after it (R133). -/
def takeSib (mode : BitVec 2) : List Byte → Parsed Mem
  | [] => .error .needMore
  | sib :: t =>
    let ss := Scale.ofCode (sib.extractLsb' 6 2)
    let idx := sibIndex (sib.extractLsb' 3 3)
    let base := sib.extractLsb' 0 3
    if mode = 0 ∧ base = 5 then andThen (takeDword t) fun v t => .ok (.sibAbs idx ss v, t)
    else andThen (takeDisp32 mode t) fun disp t => .ok (.sib (Reg.ofCode base) idx ss disp, t)

/-- A 32-bit memory operand: mod is 00, 01 or 10 (R132, R133). -/
def takeMem32 (mode : BitVec 2) (rm : BitVec 3) (t : List Byte) : Parsed Mem :=
  if rm = 4 then takeSib mode t
  else if mode = 0 ∧ rm = 5 then andThen (takeDword t) fun v t => .ok (.abs32 v, t)
  else andThen (takeDisp32 mode t) fun disp t => .ok (.base32 (Reg.ofCode rm) disp, t)

/-- A ModR/M byte with what it calls for: its reg field and its r/m operand (R128 to R133). -/
def takeModRM (p : Prefixes) : List Byte → Parsed (BitVec 3 × RM)
  | [] => .error .needMore
  | b :: t =>
    let mode := b.extractLsb' 6 2
    let reg := b.extractLsb' 3 3
    let rm := b.extractLsb' 0 3
    if mode = 3 then .ok ((reg, .reg (Reg.ofCode rm)), t)
    else if p.addr32 then andThen (takeMem32 mode rm t) fun m t => .ok ((reg, .mem m), t)
    else andThen (takeMem16 mode rm t) fun m t => .ok ((reg, .mem m), t)

/-- The bytes of a memory operand with `reg` in the reg field (R128 to R133). -/
def Mem.bytes (reg : BitVec 3) : Mem → List Byte
  | .base16 b disp => fieldByte disp.mode reg b.code :: disp.bytes
  | .abs16 v => fieldByte 0 reg 6 :: wordBytes v
  | .base32 b disp => fieldByte disp.mode reg b.code :: disp.bytes
  | .abs32 v => fieldByte 0 reg 5 :: dwordBytes v
  | .sib b idx ss disp =>
    fieldByte disp.mode reg 4 :: fieldByte ss.code (sibIndexCode idx) b.code :: disp.bytes
  | .sibAbs idx ss v =>
    fieldByte 0 reg 4 :: fieldByte ss.code (sibIndexCode idx) 5 :: dwordBytes v

/-- The bytes of an r/m operand with `reg` in the reg field (R128, R130). -/
def RM.bytes (reg : BitVec 3) : RM → List Byte
  | .reg r => [fieldByte 3 reg r.code]
  | .mem m => m.bytes reg

/-! ## Prefixes (R120 to R123) -/

def noPrefixes : Prefixes := ⟨false, false, none⟩

/-- Reads the prefixes: the three kinds in any order, each at most once (R121, U7). -/
def takePrefixes (p : Prefixes) : List Byte → Parsed Prefixes
  | [] => .error .needMore
  | b :: t =>
    if b = 0x66 then
      if p.op32 then .error .badPrefix else takePrefixes { p with op32 := true } t
    else if b = 0x67 then
      if p.addr32 then .error .badPrefix else takePrefixes { p with addr32 := true } t
    else if b = 0xF0 ∨ b = 0xF2 ∨ b = 0xF3 then .error .badPrefix
    else match SReg.ofPrefixByte? b with
      | some sr => if p.seg.isSome then .error .badPrefix else takePrefixes { p with seg := some sr } t
      | none => .ok (p, b :: t)

/-- The prefix bytes, in the order of the table of R120. -/
def Prefixes.bytes (p : Prefixes) : List Byte :=
  (if p.addr32 then [0x67] else []) ++ (if p.op32 then [0x66] else []) ++
    (match p.seg with | some sr => [sr.prefixByte] | none => [])

/-! ## The opcode maps (R151 to R153)

An opcode byte is read as in the map of R151, in rows of eight: `hi` is its value divided by 8, `lo` the
remainder. -/

/-- The eight two-operand ALU instructions by their digit (R243). -/
def aluInstr (p : Prefixes) (digit : Nat) (f : AluForm) : Instr :=
  match digit with
  | 0 => .add p f | 1 => .or p f | 2 => .adc p f | 3 => .sbb p f
  | 4 => .and p f | 5 => .sub p f | 6 => .xor p f | _ => .cmp p f

/-- Bytes 00 to 3F with low three bits 0 to 5: the ALU block (R151, R243). -/
def decodeAlu (p : Prefixes) (digit lo : Nat) (t : List Byte) : Parsed Instr :=
  match lo with
  | 0 => andThen (takeModRM p t) fun (reg, rm) t => .ok (aluInstr p digit (.rmReg .byte rm (Reg.ofCode reg)), t)
  | 1 => andThen (takeModRM p t) fun (reg, rm) t => .ok (aluInstr p digit (.rmReg p.opSize rm (Reg.ofCode reg)), t)
  | 2 => andThen (takeModRM p t) fun (reg, rm) t => .ok (aluInstr p digit (.regRm .byte (Reg.ofCode reg) rm), t)
  | 3 => andThen (takeModRM p t) fun (reg, rm) t => .ok (aluInstr p digit (.regRm p.opSize (Reg.ofCode reg) rm), t)
  | 4 => andThen (takeImm .byte t) fun imm t => .ok (aluInstr p digit (.accImm .byte imm), t)
  | _ => andThen (takeImm p.opSize t) fun imm t => .ok (aluInstr p digit (.accImm p.opSize imm), t)

/-- The group 80, 81, 83 (R153). -/
def decodeGroupImm (p : Prefixes) (lo : Nat) (t : List Byte) : Parsed Instr :=
  match lo with
  | 0 =>
    andThen (takeModRM p t) fun (reg, rm) t =>
    andThen (takeImm .byte t) fun imm t =>
    .ok (aluInstr p reg.toNat (.rmImm .byte rm imm), t)
  | 1 =>
    andThen (takeModRM p t) fun (reg, rm) t =>
    andThen (takeImm p.opSize t) fun imm t =>
    .ok (aluInstr p reg.toNat (.rmImm p.opSize rm imm), t)
  | _ =>
    andThen (takeModRM p t) fun (reg, rm) t =>
    andThen (takeByte t) fun imm t =>
    .ok (aluInstr p reg.toNat (.rmImm8 p.opSize rm imm), t)

/-- A shift or rotate by its digit (R153, R300). -/
def shiftInstr (p : Prefixes) (digit : Nat) (w : Width) (rm : RM) (n : Count) (t : List Byte) : Parsed Instr :=
  match digit with
  | 0 => .ok (.rol p w rm n, t) | 1 => .ok (.ror p w rm n, t) | 2 => .ok (.rcl p w rm n, t)
  | 3 => .ok (.rcr p w rm n, t) | 4 => .ok (.sal p w rm n, t) | 5 => .ok (.shr p w rm n, t)
  | 7 => .ok (.sar p w rm n, t)
  | _ => .error .undefinedOpcode

/-- A shift or rotate by 1 or by CL: `D0` to `D3` (R300). -/
def decodeShift (p : Prefixes) (w : Width) (n : Count) (t : List Byte) : Parsed Instr :=
  andThen (takeModRM p t) fun (reg, rm) t =>
  shiftInstr p reg.toNat w rm n t

/-- A shift or rotate by an immediate byte: `C0`, `C1` (R300). DESIGN CHOICE (log entry 15): the immediate is
read before the undefined digit /6 is rejected, so that one whose immediate would lie past offset 0FFFFH is
Interrupt 13 (U10) and not refused (U5). -/
def decodeShiftImm (p : Prefixes) (w : Width) (t : List Byte) : Parsed Instr :=
  andThen (takeModRM p t) fun (reg, rm) t =>
  andThen (takeByte t) fun n t =>
  shiftInstr p reg.toNat w rm (.imm n) t

/-- The group F6, F7 (R153). -/
def decodeGroupUnary (p : Prefixes) (w : Width) (t : List Byte) : Parsed Instr :=
  andThen (takeModRM p t) fun (reg, rm) t =>
  match reg.toNat with
  | 0 => andThen (takeImm w t) fun imm t => .ok (.test p (.rmImm w rm imm), t)
  | 2 => .ok (.not p w rm, t)
  | 3 => .ok (.neg p w rm, t)
  | 4 => .ok (.mul p w rm, t)
  | 5 => .ok (.imulAcc p w rm, t)
  | 6 => .ok (.div p w rm, t)
  | 7 => .ok (.idiv p w rm, t)
  | _ => .error .undefinedOpcode

/-- A control transfer listed for OperandSize 16 only (R159, U4). -/
def only16 (p : Prefixes) (x : Parsed Instr) : Parsed Instr :=
  if p.op32 then .error .opsize32ControlTransfer else x

/-- A far indirect transfer: its operand is in memory (R158, U6). -/
def farMem (mk : Mem → Instr) (rm : RM) (t : List Byte) : Parsed Instr :=
  match rm with
  | .mem m => .ok (mk m, t)
  | .reg _ => .error .farIndirectRegister

/-- The group FE (R153). -/
def decodeGroupFE (p : Prefixes) (t : List Byte) : Parsed Instr :=
  andThen (takeModRM p t) fun (reg, rm) t =>
  match reg.toNat with
  | 0 => .ok (.incRm p .byte rm, t)
  | 1 => .ok (.decRm p .byte rm, t)
  | _ => .error .undefinedOpcode

/-- The group FF (R153). DESIGN CHOICE (log entry 15): the operand, its displacement too, is read before 66H is
judged, so that 66H with /2 to /5 is refused (U4, R159, R326) only where the operand ends by offset 0FFFFH, and
is Interrupt 13 (U10) where it does not; 66H before E8, EA, 9A, C2 and CA is judged first. -/
def decodeGroupFF (p : Prefixes) (t : List Byte) : Parsed Instr :=
  andThen (takeModRM p t) fun (reg, rm) t =>
  match reg.toNat with
  | 0 => .ok (.incRm p p.opSize rm, t)
  | 1 => .ok (.decRm p p.opSize rm, t)
  | 2 => only16 p (.ok (.callRm p rm, t))
  | 3 => only16 p (farMem (.callMem p) rm t)
  | 4 => only16 p (.ok (.jmpRm p rm, t))
  | 5 => only16 p (farMem (.jmpMem p) rm t)
  | 6 => .ok (.pushRm p rm, t)
  | _ => .error .undefinedOpcode

/-- `C6 /0`, `C7 /0` (R153, R207). -/
def decodeMovImm (p : Prefixes) (w : Width) (t : List Byte) : Parsed Instr :=
  andThen (takeModRM p t) fun (reg, rm) t =>
  if reg = 0 then
    andThen (takeImm w t) fun imm t =>
    .ok (.movRmImm p w rm imm, t)
  else .error .undefinedOpcode

/-- `8C /r`: 66H is refused (R121, R202), codes 6 and 7 too (R157). DESIGN CHOICE (log entry 15): the operand is
read first, so that one that runs past offset 0FFFFH is Interrupt 13 (U10) before the refusal of U8 or U5. -/
def decodeMovRmSreg (p : Prefixes) (t : List Byte) : Parsed Instr :=
  andThen (takeModRM p t) fun (reg, rm) t =>
  if p.op32 then .error .opsizeOnMovSreg
  else match SReg.ofCode? reg with
    | some sr => .ok (.movRmSreg p rm sr, t)
    | none => .error .badSreg

/-- `8E /r`: 66H is refused (R121, R203), CS and codes 6 and 7 too (R157). DESIGN CHOICE (log entry 15): the
operand is read first, so that one that runs past offset 0FFFFH is Interrupt 13 (U10) before the refusal of U8
or U5. -/
def decodeMovSregRm (p : Prefixes) (t : List Byte) : Parsed Instr :=
  andThen (takeModRM p t) fun (reg, rm) t =>
  if p.op32 then .error .opsizeOnMovSreg
  else match SReg.ofCode? reg with
    | some .cs => .error .badSreg
    | some sr => .ok (.movSregRm p sr rm, t)
    | none => .error .badSreg

/-- `8F /0` (R153, R214). -/
def decodePopRm (p : Prefixes) (t : List Byte) : Parsed Instr :=
  andThen (takeModRM p t) fun (reg, rm) t =>
  if reg = 0 then .ok (.popRm p rm, t) else .error .undefinedOpcode

/-- `0F BA /4 ib` (R153, R286). -/
def decodeBtImm (p : Prefixes) (t : List Byte) : Parsed Instr :=
  andThen (takeModRM p t) fun (reg, rm) t =>
  if reg = 4 then
    andThen (takeByte t) fun imm t =>
    .ok (.btRmImm p rm imm, t)
  else .error .undefinedOpcode

/-- A form with `/r`: a register operand and an r/m operand (R13). -/
def decodeSlashR (p : Prefixes) (mk : Reg → RM → Instr) (t : List Byte) : Parsed Instr :=
  andThen (takeModRM p t) fun (reg, rm) t =>
  .ok (mk (Reg.ofCode reg) rm, t)

/-- A conditional jump by its condition code (R320). -/
def jccInstr (p : Prefixes) (cc : Nat) (t : Rel) : Instr :=
  match cc with
  | 0 => .jo p t
  | 1 => .jno p t
  | 2 => .jb p t
  | 3 => .jae p t
  | 4 => .je p t
  | 5 => .jne p t
  | 6 => .jbe p t
  | 7 => .ja p t
  | 8 => .js p t
  | 9 => .jns p t
  | 10 => .jp p t
  | 11 => .jnp p t
  | 12 => .jl p t
  | 13 => .jge p t
  | 14 => .jle p t
  | _ => .jg p t

/-- 68 to 6F (R151). -/
def decode68 (p : Prefixes) (lo : Nat) (t : List Byte) : Parsed Instr :=
  match lo with
  | 0 => andThen (takeImm p.opSize t) fun imm t => .ok (.pushImm p p.opSize imm, t)
  | 1 =>
    andThen (takeModRM p t) fun (reg, rm) t =>
    andThen (takeImm p.opSize t) fun imm t =>
    .ok (.imulRRmImm p p.opSize (Reg.ofCode reg) rm imm, t)
  | 3 =>
    andThen (takeModRM p t) fun (reg, rm) t =>
    andThen (takeByte t) fun imm t =>
    .ok (.imulRRmImm8 p (Reg.ofCode reg) rm imm, t)
  | _ => .error .undefinedOpcode

/-- 80 to 87 (R151). -/
def decode80 (p : Prefixes) (lo : Nat) (t : List Byte) : Parsed Instr :=
  match lo with
  | 0 => decodeGroupImm p 0 t
  | 1 => decodeGroupImm p 1 t
  | 3 => decodeGroupImm p 3 t
  | 4 => decodeSlashR p (fun r rm => .test p (.rmReg .byte rm r)) t
  | 5 => decodeSlashR p (fun r rm => .test p (.rmReg p.opSize rm r)) t
  | 6 => decodeSlashR p (fun r rm => .xchgRmR p .byte rm r) t
  | 7 => decodeSlashR p (fun r rm => .xchgRmR p p.opSize rm r) t
  | _ => .error .undefinedOpcode

/-- 88 to 8F (R151). -/
def decode88 (p : Prefixes) (lo : Nat) (t : List Byte) : Parsed Instr :=
  match lo with
  | 0 => decodeSlashR p (fun r rm => .movRmR p .byte rm r) t
  | 1 => decodeSlashR p (fun r rm => .movRmR p p.opSize rm r) t
  | 2 => decodeSlashR p (fun r rm => .movRRm p .byte r rm) t
  | 3 => decodeSlashR p (fun r rm => .movRRm p p.opSize r rm) t
  | 4 => decodeMovRmSreg p t
  | 5 => decodeSlashR p (fun r rm => .lea p r rm) t
  | 6 => decodeMovSregRm p t
  | _ => decodePopRm p t

/-- 90 to 97: 90 is NOP (R208, R371). -/
def decode90 (p : Prefixes) (r : Reg) (t : List Byte) : Parsed Instr :=
  match r with
  | .eax => .ok (.nop p, t)
  | r => .ok (.xchgAcc p r, t)

/-- 98 to 9F (R151). -/
def decode98 (p : Prefixes) (lo : Nat) (t : List Byte) : Parsed Instr :=
  match lo with
  | 1 => .ok (if p.op32 then .cdq p else .cwd p, t)
  | 2 => only16 p <|
    andThen (takeWord t) fun off t =>
    andThen (takeWord t) fun sel t =>
    .ok (.callPtr p sel off, t)
  | _ => .error .undefinedOpcode

/-- A0 to A7 (R151). -/
def decodeA0 (p : Prefixes) (lo : Nat) (t : List Byte) : Parsed Instr :=
  match lo with
  | 0 => andThen (takeMoffs p t) fun off t => .ok (.movAccMoffs p .byte off, t)
  | 1 => andThen (takeMoffs p t) fun off t => .ok (.movAccMoffs p p.opSize off, t)
  | 2 => andThen (takeMoffs p t) fun off t => .ok (.movMoffsAcc p .byte off, t)
  | 3 => andThen (takeMoffs p t) fun off t => .ok (.movMoffsAcc p p.opSize off, t)
  | _ => .error .undefinedOpcode

/-- A8 to AF (R151). -/
def decodeA8 (p : Prefixes) (lo : Nat) (t : List Byte) : Parsed Instr :=
  match lo with
  | 0 => andThen (takeImm .byte t) fun imm t => .ok (.test p (.accImm .byte imm), t)
  | 1 => andThen (takeImm p.opSize t) fun imm t => .ok (.test p (.accImm p.opSize imm), t)
  | _ => .error .undefinedOpcode

/-- C0 to C7 (R151). -/
def decodeC0 (p : Prefixes) (lo : Nat) (t : List Byte) : Parsed Instr :=
  match lo with
  | 0 => decodeShiftImm p .byte t
  | 1 => decodeShiftImm p p.opSize t
  | 2 => only16 p <| andThen (takeWord t) fun n t => .ok (.retNearImm p n, t)
  | 3 => only16 p (.ok (.retNear p, t))
  | 6 => decodeMovImm p .byte t
  | 7 => decodeMovImm p p.opSize t
  | _ => .error .undefinedOpcode

/-- C8 to CF (R151). -/
def decodeC8 (p : Prefixes) (lo : Nat) (t : List Byte) : Parsed Instr :=
  match lo with
  | 2 => only16 p <| andThen (takeWord t) fun n t => .ok (.retFarImm p n, t)
  | 3 => only16 p (.ok (.retFar p, t))
  | 7 => only16 p (.ok (.iret p, t))
  | _ => .error .undefinedOpcode

/-- D0 to D7 (R151). -/
def decodeD0 (p : Prefixes) (lo : Nat) (t : List Byte) : Parsed Instr :=
  match lo with
  | 0 => decodeShift p .byte .one t
  | 1 => decodeShift p p.opSize .one t
  | 2 => decodeShift p .byte .cl t
  | 3 => decodeShift p p.opSize .cl t
  | _ => .error .undefinedOpcode

/-- E0 to E7 (R151). -/
def decodeE0 (p : Prefixes) (lo : Nat) (t : List Byte) : Parsed Instr :=
  match lo with
  | 4 => andThen (takeByte t) fun port t => .ok (.inImm p .byte port, t)
  | 5 => andThen (takeByte t) fun port t => .ok (.inImm p p.opSize port, t)
  | 6 => andThen (takeByte t) fun port t => .ok (.outImm p .byte port, t)
  | 7 => andThen (takeByte t) fun port t => .ok (.outImm p p.opSize port, t)
  | _ => .error .undefinedOpcode

/-- E8 to EF (R151). -/
def decodeE8 (p : Prefixes) (lo : Nat) (t : List Byte) : Parsed Instr :=
  match lo with
  | 0 => only16 p <| andThen (takeWord t) fun rel t => .ok (.callRel p rel, t)
  | 1 => andThen (takeRel p t) fun rel t => .ok (.jmpRel p rel, t)
  | 2 => only16 p <|
    andThen (takeWord t) fun off t =>
    andThen (takeWord t) fun sel t =>
    .ok (.jmpPtr p sel off, t)
  | 3 => andThen (takeRel8 t) fun rel t => .ok (.jmpRel p rel, t)
  | 4 => .ok (.inDx p .byte, t)
  | 5 => .ok (.inDx p p.opSize, t)
  | 6 => .ok (.outDx p .byte, t)
  | _ => .ok (.outDx p p.opSize, t)

/-- F0 to F7 (R151). -/
def decodeF0 (p : Prefixes) (lo : Nat) (t : List Byte) : Parsed Instr :=
  match lo with
  | 5 => .ok (.cmc p, t)
  | 6 => decodeGroupUnary p .byte t
  | 7 => decodeGroupUnary p p.opSize t
  | _ => .error .undefinedOpcode

/-- F8 to FF (R151). -/
def decodeF8 (p : Prefixes) (lo : Nat) (t : List Byte) : Parsed Instr :=
  match lo with
  | 0 => .ok (.clc p, t)
  | 1 => .ok (.stc p, t)
  | 2 => .ok (.cli p, t)
  | 3 => .ok (.sti p, t)
  | 6 => decodeGroupFE p t
  | 7 => decodeGroupFF p t
  | _ => .error .undefinedOpcode

/-- The two-byte opcodes, after 0FH (R152). -/
def decodeTwoByte (p : Prefixes) : List Byte → Parsed Instr
  | [] => .error .needMore
  | b :: t =>
    match b.toNat / 8, b.toNat % 8 with
    | 16, lo => andThen (takeRel p t) fun rel t => .ok (jccInstr p lo rel, t)
    | 17, lo => andThen (takeRel p t) fun rel t => .ok (jccInstr p (8 + lo) rel, t)
    | 20, 0 => .ok (.pushSreg p .fs, t)
    | 20, 1 => .ok (.popSreg p .fs, t)
    | 20, 3 => decodeSlashR p (fun r rm => .btRmR p rm r) t
    | 21, 0 => .ok (.pushSreg p .gs, t)
    | 21, 1 => .ok (.popSreg p .gs, t)
    | 21, 7 => decodeSlashR p (fun r rm => .imulRRm p r rm) t
    | 22, 6 => decodeSlashR p (fun r rm => .movzx8 p r rm) t
    | 22, 7 => if p.op32 then decodeSlashR p (fun r rm => .movzx16 p r rm) t else .error .undefinedOpcode
    | 23, 2 => decodeBtImm p t
    | 23, 6 => decodeSlashR p (fun r rm => .movsx8 p r rm) t
    | 23, 7 => if p.op32 then decodeSlashR p (fun r rm => .movsx16 p r rm) t else .error .undefinedOpcode
    | _, _ => .error .undefinedOpcode

/-- 00 to 3F: the ALU block, and in its columns 6 and 7 the segment pushes and pops and the escape byte
(R151). The override bytes among them are prefixes and never reach this map. -/
def decodeLow (p : Prefixes) (hi lo : Nat) (t : List Byte) : Parsed Instr :=
  if lo < 6 then decodeAlu p hi lo t
  else match hi, lo with
    | 0, 6 => .ok (.pushSreg p .es, t)
    | 0, 7 => .ok (.popSreg p .es, t)
    | 1, 6 => .ok (.pushSreg p .cs, t)
    | 1, 7 => decodeTwoByte p t
    | 2, 6 => .ok (.pushSreg p .ss, t)
    | 2, 7 => .ok (.popSreg p .ss, t)
    | 3, 6 => .ok (.pushSreg p .ds, t)
    | 3, 7 => .ok (.popSreg p .ds, t)
    | _, _ => .error .undefinedOpcode

/-- The one-byte opcode map (R151). -/
def decodeOpcode (p : Prefixes) (b : Byte) (t : List Byte) : Parsed Instr :=
  let hi := b.toNat / 8
  let lo := b.toNat % 8
  let r := Reg.ofCode (b.extractLsb' 0 3)
  match hi with
  | 8 => .ok (.incR p r, t)
  | 9 => .ok (.decR p r, t)
  | 10 => .ok (.pushR p r, t)
  | 11 => .ok (.popR p r, t)
  | 12 => .error .undefinedOpcode
  | 13 => decode68 p lo t
  | 14 => andThen (takeRel8 t) fun rel t => .ok (jccInstr p lo rel, t)
  | 15 => andThen (takeRel8 t) fun rel t => .ok (jccInstr p (8 + lo) rel, t)
  | 16 => decode80 p lo t
  | 17 => decode88 p lo t
  | 18 => decode90 p r t
  | 19 => decode98 p lo t
  | 20 => decodeA0 p lo t
  | 21 => decodeA8 p lo t
  | 22 => andThen (takeImm .byte t) fun imm t => .ok (.movRImm p .byte r imm, t)
  | 23 => andThen (takeImm p.opSize t) fun imm t => .ok (.movRImm p p.opSize r imm, t)
  | 24 => decodeC0 p lo t
  | 25 => decodeC8 p lo t
  | 26 => decodeD0 p lo t
  | 27 => .error .undefinedOpcode
  | 28 => decodeE0 p lo t
  | 29 => decodeE8 p lo t
  | 30 => decodeF0 p lo t
  | 31 => decodeF8 p lo t
  | _ => decodeLow p hi lo t

/-- The instruction at the head of some bytes and the bytes after it (R120, R147). -/
def decode (bs : List Byte) : Parsed Instr :=
  andThen (takePrefixes noPrefixes bs) fun p t =>
  match t with
  | [] => .error .needMore
  | b :: t => decodeOpcode p b t

/-! ## The encoder -/

/-- An opcode of a pair: the even byte for byte operands, the odd one for word and doubleword operands
(the w field of R127). -/
def opW (w : Width) (b : Byte) : Byte :=
  if w = .byte then b else b + 1

/-- An opcode with a register code in its low three bits (R127). -/
def opR (b : Byte) (r : Reg) : Byte := b + r.code.setWidth 8

/-- The bytes of an ALU instruction after its prefixes: its digit gives `base` and `/n` (R243). -/
def AluForm.bytes (digit : BitVec 3) : AluForm → List Byte
  | .accImm w imm => opW w (digit.setWidth 8 * 8 + 4) :: leBytes w imm
  | .rmImm w rm imm => opW w 0x80 :: (rm.bytes digit ++ leBytes w imm)
  | .rmImm8 _ rm imm => 0x83 :: (rm.bytes digit ++ [imm])
  | .rmReg w rm r => opW w (digit.setWidth 8 * 8) :: rm.bytes r.code
  | .regRm w r rm => opW w (digit.setWidth 8 * 8 + 2) :: rm.bytes r.code

/-- The bytes of TEST after its prefixes (R284). -/
def TestForm.bytes : TestForm → List Byte
  | .accImm w imm => opW w 0xA8 :: leBytes w imm
  | .rmImm w rm imm => opW w 0xF6 :: (rm.bytes 0 ++ leBytes w imm)
  | .rmReg w rm r => opW w 0x84 :: rm.bytes r.code

/-- The bytes of a shift or rotate after its prefixes (R300). -/
def shiftBytes (digit : BitVec 3) (w : Width) (rm : RM) : Count → List Byte
  | .one => opW w 0xD0 :: rm.bytes digit
  | .cl => opW w 0xD2 :: rm.bytes digit
  | .imm n => opW w 0xC0 :: (rm.bytes digit ++ [n])

/-- The bytes of a conditional jump after its prefixes (R320). -/
def jccBytes (cc : Byte) : Rel → List Byte
  | .rel8 v => [0x70 + cc, v]
  | .rel16 v => 0x0F :: (0x80 + cc) :: wordBytes v
  | .rel32 v => 0x0F :: (0x80 + cc) :: dwordBytes v

/-- The bytes of JMP relative after its prefixes (R324, R325). -/
def jmpBytes : Rel → List Byte
  | .rel8 v => [0xEB, v]
  | .rel16 v => 0xE9 :: wordBytes v
  | .rel32 v => 0xE9 :: dwordBytes v

/-- The opcode bytes of PUSH Sreg (R213). -/
def pushSregBytes : SReg → List Byte
  | .es => [0x06] | .cs => [0x0E] | .ss => [0x16] | .ds => [0x1E]
  | .fs => [0x0F, 0xA0] | .gs => [0x0F, 0xA8]

/-- The opcode bytes of POP Sreg (R216). There is no POP CS: the byte 0F is the escape (R157). -/
def popSregBytes : SReg → List Byte
  | .es => [0x07] | .cs => [0x0F] | .ss => [0x17] | .ds => [0x1F]
  | .fs => [0x0F, 0xA1] | .gs => [0x0F, 0xA9]

/-- The bytes of an instruction after its prefixes. -/
def Instr.body : Instr → List Byte
  | .add _ f => f.bytes 0
  | .or _ f => f.bytes 1
  | .adc _ f => f.bytes 2
  | .sbb _ f => f.bytes 3
  | .and _ f => f.bytes 4
  | .sub _ f => f.bytes 5
  | .xor _ f => f.bytes 6
  | .cmp _ f => f.bytes 7
  | .test _ f => f.bytes
  | .not _ w rm => opW w 0xF6 :: rm.bytes 2
  | .neg _ w rm => opW w 0xF6 :: rm.bytes 3
  | .mul _ w rm => opW w 0xF6 :: rm.bytes 4
  | .imulAcc _ w rm => opW w 0xF6 :: rm.bytes 5
  | .div _ w rm => opW w 0xF6 :: rm.bytes 6
  | .idiv _ w rm => opW w 0xF6 :: rm.bytes 7
  | .imulRRm _ r rm => 0x0F :: 0xAF :: rm.bytes r.code
  | .imulRRmImm8 _ r rm imm => 0x6B :: (rm.bytes r.code ++ [imm])
  | .imulRRmImm _ w r rm imm => 0x69 :: (rm.bytes r.code ++ leBytes w imm)
  | .incRm _ w rm => opW w 0xFE :: rm.bytes 0
  | .incR _ r => [opR 0x40 r]
  | .decRm _ w rm => opW w 0xFE :: rm.bytes 1
  | .decR _ r => [opR 0x48 r]
  | .btRmR _ rm r => 0x0F :: 0xA3 :: rm.bytes r.code
  | .btRmImm _ rm imm => 0x0F :: 0xBA :: (rm.bytes 4 ++ [imm])
  | .rol _ w rm n => shiftBytes 0 w rm n
  | .ror _ w rm n => shiftBytes 1 w rm n
  | .rcl _ w rm n => shiftBytes 2 w rm n
  | .rcr _ w rm n => shiftBytes 3 w rm n
  | .sal _ w rm n => shiftBytes 4 w rm n
  | .shl _ w rm n => shiftBytes 4 w rm n
  | .shr _ w rm n => shiftBytes 5 w rm n
  | .sar _ w rm n => shiftBytes 7 w rm n
  | .movRmR _ w rm r => opW w 0x88 :: rm.bytes r.code
  | .movRRm _ w r rm => opW w 0x8A :: rm.bytes r.code
  | .movRmSreg _ rm sr => 0x8C :: rm.bytes sr.code
  | .movSregRm _ sr rm => 0x8E :: rm.bytes sr.code
  | .movAccMoffs _ w off => opW w 0xA0 :: off.bytes
  | .movMoffsAcc _ w off => opW w 0xA2 :: off.bytes
  | .movRImm _ w r imm => (if w = .byte then opR 0xB0 r else opR 0xB8 r) :: leBytes w imm
  | .movRmImm _ w rm imm => opW w 0xC6 :: (rm.bytes 0 ++ leBytes w imm)
  | .xchgAcc _ r => [opR 0x90 r]
  | .xchgRmR _ w rm r => opW w 0x86 :: rm.bytes r.code
  | .pushRm _ rm => 0xFF :: rm.bytes 6
  | .pushR _ r => [opR 0x50 r]
  | .pushImm _ w imm => 0x68 :: leBytes w imm
  | .pushSreg _ sr => pushSregBytes sr
  | .popRm _ rm => 0x8F :: rm.bytes 0
  | .popR _ r => [opR 0x58 r]
  | .popSreg _ sr => popSregBytes sr
  | .movsx8 _ r rm => 0x0F :: 0xBE :: rm.bytes r.code
  | .movsx16 _ r rm => 0x0F :: 0xBF :: rm.bytes r.code
  | .movzx8 _ r rm => 0x0F :: 0xB6 :: rm.bytes r.code
  | .movzx16 _ r rm => 0x0F :: 0xB7 :: rm.bytes r.code
  | .cwd _ => [0x99]
  | .cdq _ => [0x99]
  | .jo _ t => jccBytes 0 t
  | .jno _ t => jccBytes 1 t
  | .jb _ t => jccBytes 2 t
  | .jc _ t => jccBytes 2 t
  | .jnae _ t => jccBytes 2 t
  | .jae _ t => jccBytes 3 t
  | .jnb _ t => jccBytes 3 t
  | .jnc _ t => jccBytes 3 t
  | .je _ t => jccBytes 4 t
  | .jz _ t => jccBytes 4 t
  | .jne _ t => jccBytes 5 t
  | .jnz _ t => jccBytes 5 t
  | .jbe _ t => jccBytes 6 t
  | .jna _ t => jccBytes 6 t
  | .ja _ t => jccBytes 7 t
  | .jnbe _ t => jccBytes 7 t
  | .js _ t => jccBytes 8 t
  | .jns _ t => jccBytes 9 t
  | .jp _ t => jccBytes 10 t
  | .jpe _ t => jccBytes 10 t
  | .jnp _ t => jccBytes 11 t
  | .jpo _ t => jccBytes 11 t
  | .jl _ t => jccBytes 12 t
  | .jnge _ t => jccBytes 12 t
  | .jge _ t => jccBytes 13 t
  | .jnl _ t => jccBytes 13 t
  | .jle _ t => jccBytes 14 t
  | .jng _ t => jccBytes 14 t
  | .jg _ t => jccBytes 15 t
  | .jnle _ t => jccBytes 15 t
  | .jmpRel _ t => jmpBytes t
  | .jmpRm _ rm => 0xFF :: rm.bytes 4
  | .jmpPtr _ sel off => 0xEA :: (wordBytes off ++ wordBytes sel)
  | .jmpMem _ m => 0xFF :: m.bytes 5
  | .callRel _ rel => 0xE8 :: wordBytes rel
  | .callRm _ rm => 0xFF :: rm.bytes 2
  | .callPtr _ sel off => 0x9A :: (wordBytes off ++ wordBytes sel)
  | .callMem _ m => 0xFF :: m.bytes 3
  | .retFar _ => [0xCB]
  | .retFarImm _ n => 0xCA :: wordBytes n
  | .retNear _ => [0xC3]
  | .retNearImm _ n => 0xC2 :: wordBytes n
  | .iret _ => [0xCF]
  | .stc _ => [0xF9]
  | .clc _ => [0xF8]
  | .cmc _ => [0xF5]
  | .cli _ => [0xFA]
  | .sti _ => [0xFB]
  | .inImm _ w port => [opW w 0xE4, port]
  | .inDx _ w => [opW w 0xEC]
  | .outImm _ w port => [opW w 0xE6, port]
  | .outDx _ w => [opW w 0xEE]
  | .lea _ r rm => 0x8D :: rm.bytes r.code
  | .nop _ => [0x90]

/-- The prefixes of an instruction (R120). -/
def Instr.prefixes : Instr → Prefixes
  | .add p _ => p
  | .or p _ => p
  | .adc p _ => p
  | .sbb p _ => p
  | .and p _ => p
  | .sub p _ => p
  | .xor p _ => p
  | .cmp p _ => p
  | .test p _ => p
  | .not p _ _ => p
  | .neg p _ _ => p
  | .mul p _ _ => p
  | .imulAcc p _ _ => p
  | .div p _ _ => p
  | .idiv p _ _ => p
  | .imulRRm p _ _ => p
  | .imulRRmImm8 p _ _ _ => p
  | .imulRRmImm p _ _ _ _ => p
  | .incRm p _ _ => p
  | .incR p _ => p
  | .decRm p _ _ => p
  | .decR p _ => p
  | .btRmR p _ _ => p
  | .btRmImm p _ _ => p
  | .rol p _ _ _ => p
  | .ror p _ _ _ => p
  | .rcl p _ _ _ => p
  | .rcr p _ _ _ => p
  | .sal p _ _ _ => p
  | .shl p _ _ _ => p
  | .shr p _ _ _ => p
  | .sar p _ _ _ => p
  | .movRmR p _ _ _ => p
  | .movRRm p _ _ _ => p
  | .movRmSreg p _ _ => p
  | .movSregRm p _ _ => p
  | .movAccMoffs p _ _ => p
  | .movMoffsAcc p _ _ => p
  | .movRImm p _ _ _ => p
  | .movRmImm p _ _ _ => p
  | .xchgAcc p _ => p
  | .xchgRmR p _ _ _ => p
  | .pushRm p _ => p
  | .pushR p _ => p
  | .pushImm p _ _ => p
  | .pushSreg p _ => p
  | .popRm p _ => p
  | .popR p _ => p
  | .popSreg p _ => p
  | .movsx8 p _ _ => p
  | .movsx16 p _ _ => p
  | .movzx8 p _ _ => p
  | .movzx16 p _ _ => p
  | .cwd p => p
  | .cdq p => p
  | .jo p _ => p
  | .jno p _ => p
  | .jb p _ => p
  | .jc p _ => p
  | .jnae p _ => p
  | .jae p _ => p
  | .jnb p _ => p
  | .jnc p _ => p
  | .je p _ => p
  | .jz p _ => p
  | .jne p _ => p
  | .jnz p _ => p
  | .jbe p _ => p
  | .jna p _ => p
  | .ja p _ => p
  | .jnbe p _ => p
  | .js p _ => p
  | .jns p _ => p
  | .jp p _ => p
  | .jpe p _ => p
  | .jnp p _ => p
  | .jpo p _ => p
  | .jl p _ => p
  | .jnge p _ => p
  | .jge p _ => p
  | .jnl p _ => p
  | .jle p _ => p
  | .jng p _ => p
  | .jg p _ => p
  | .jnle p _ => p
  | .jmpRel p _ => p
  | .jmpRm p _ => p
  | .jmpPtr p _ _ => p
  | .jmpMem p _ => p
  | .callRel p _ => p
  | .callRm p _ => p
  | .callPtr p _ _ => p
  | .callMem p _ => p
  | .retFar p => p
  | .retFarImm p _ => p
  | .retNear p => p
  | .retNearImm p _ => p
  | .iret p => p
  | .stc p => p
  | .clc p => p
  | .cmc p => p
  | .cli p => p
  | .sti p => p
  | .inImm p _ _ => p
  | .inDx p _ => p
  | .outImm p _ _ => p
  | .outDx p _ => p
  | .lea p _ _ => p
  | .nop p => p

/-- The bytes of a well-formed instruction, prefixes first (R120). -/
def encode (i : Instr) : List Byte := i.prefixes.bytes ++ i.body

/-- The length of an instruction in bytes, prefixes included (R147). -/
def Instr.length (i : Instr) : Nat := (encode i).length

/-! ## Instructions as numbers, for the host -/

/-- The longest instruction of the subset (R147). -/
def maxLength : Nat := 14

/-- The first `n` bytes of a number whose bits 7:0 are the first byte. -/
def numberBytes : Nat → Nat → List Byte
  | 0, _ => []
  | n + 1, v => BitVec.ofNat 8 v :: numberBytes n (v / 256)

/-- The instruction the decoder reads from `nbits` bits `v`, the bytes after them being 0. -/
def decodeTableWord (nbits v : Nat) : Option Instr :=
  match decode (numberBytes maxLength (v % 2 ^ nbits)) with
  | .ok (i, _) => some i
  | .error _ => none

end Sys2Proof
end

