-- ==== Sys2Proof/Config.lean ====
section
/-!
DEFINITION. The values the manual leaves open, as constants with no body: nothing can be proved of
any of them, so a claim about the model holds whatever they are. The log entries that name them are
2, 3, 4, 12, 19 and 32.
-/

namespace Sys2Proof

/-- `undefined_1()`, the free one-bit draw (R9, R56, U1): the draw with this number. -/
opaque Config.undefinedBit : Nat → Bool

/-- Sixteen free bits at once: the upper half of a 32-bit PUSH of a segment register (R213, U3) and
the undescribed bits of a pushed FLAGS word (R48, U2). -/
opaque Config.undefinedWord : Nat → Word

/-- The value the platform presents to an IN that the host has not scripted (R102, D13). -/
opaque Config.portValue : Nat → Dword

/-- The byte a memory-mapped device presents to a read that the host has not scripted (R103). -/
opaque Config.deviceByte : Nat → Byte

/-- INT_CYCLES, the cost of the interrupt sequence, which the timing model leaves open (R475, D19). -/
opaque Config.intCycles : Nat

end Sys2Proof
end

