-- ==== Sys2Proof/Machine/State.lean ====
section
/-!
DEFINITION. The state of the machine as plain data: every piece of state the spec names (INVENTORY.md,
"State"), the reasons a step stops, and the state after RESET.
-/

namespace Sys2Proof.Machine

/-- The eight general registers (R30). -/
structure Regs where
  eax : Dword
  ecx : Dword
  edx : Dword
  ebx : Dword
  esp : Dword
  ebp : Dword
  esi : Dword
  edi : Dword
  deriving DecidableEq, Repr

/-- The six segment registers (R37). -/
structure Segs where
  es : Word
  cs : Word
  ss : Word
  ds : Word
  fs : Word
  gs : Word
  deriving DecidableEq, Repr

/-- EFLAGS, bit by bit (R44): the described flags under their names (`ovf` is OF, `ief` is IF), the
undescribed bits of FLAGS under their numbers, and bits 31:16 (R48). -/
structure EFlags where
  cf : Bool
  bit1 : Bool
  pf : Bool
  bit3 : Bool
  af : Bool
  bit5 : Bool
  zf : Bool
  sf : Bool
  tf : Bool
  ief : Bool
  bit10 : Bool
  ovf : Bool
  bit12 : Bool
  bit13 : Bool
  bit14 : Bool
  bit15 : Bool
  upper : Word
  deriving DecidableEq, Repr

/-- A range of physical addresses: `base` to `base + size - 1`. -/
structure Region where
  base : Nat
  size : Nat
  deriving DecidableEq, Repr

/-- The direction of an I/O access. -/
inductive IoDir where
  | input | output
  deriving DecidableEq, Repr

/-- One entry of the observable I/O trace: port, width and value (D13). -/
structure IoAccess where
  dir : IoDir
  port : Word
  width : Width
  value : Dword
  deriving DecidableEq, Repr

/-- One access to a byte of a memory-mapped device: physical address and value (R103). -/
structure DeviceAccess where
  dir : IoDir
  addr : Nat
  value : Byte
  deriving DecidableEq, Repr

/-- Memory, as the bytes that differ from 0, by strictly rising address (R80; `Memory.wf` in `Ops.lean`). -/
abbrev Memory := List Host.Cell

/-- Everything the spec gives the machine. The last field is the model's own. -/
structure State where
  /-- The general registers (R30 to R33). -/
  regs : Regs
  /-- The segment registers (R37 to R39). -/
  segs : Segs
  /-- The instruction pointer: the offset of the next instruction (R40, R41). -/
  eip : Dword
  /-- EFLAGS (R44 to R48). -/
  flags : EFlags
  /-- The MOV SS and POP SS window (R60, R413). -/
  inhibit : Bool
  /-- The STI window, which blocks INTR only (R364, R413). -/
  inhibitMaskable : Bool
  /-- The shutdown state (R62, R419). -/
  shutdown : Bool
  /-- The level of INTR with its identifier: the host's input (R61, R411, R414). -/
  intr : Option Byte
  /-- The NMI events not yet taken, each of which is taken once: the host's input (R61, R412). -/
  nmi : Nat
  /-- The RESET signal: the host's input (R452). -/
  resetSignal : Bool
  /-- Physical memory (R80), the interrupt table at linear 0 in it (R104). -/
  mem : Memory
  /-- MEM_PRESENT: the populated addresses (R80, D5). -/
  present : List Region
  /-- MMIO_REGIONS: the addresses with device behaviour (R103, D5). -/
  mmio : List Region
  /-- The bytes the devices at memory addresses will present to the next reads of them, the next one first
  (R103, log entry 32). -/
  deviceIn : List Byte
  /-- Every access to a byte of a memory-mapped device so far, the latest last (R103, log entry 32). -/
  deviceTrace : List DeviceAccess
  /-- The values the platform will present to the next INs, the next one first (R102, D13). -/
  ioIn : List Dword
  /-- Every I/O access so far, the latest last (R102, D13). -/
  ioTrace : List IoAccess
  /-- The cycle counter of the timing model (R470). -/
  cycles : Nat
  /-- The addresses stored to since the last taken control transfer, of memory and of devices: bytes the
  prefetch queue may hold in their old form (R63, R113, U13). -/
  stored : List Nat
  /-- The number of free values drawn so far (the model's own; R9, R56). -/
  draws : Nat
  deriving DecidableEq, Repr

/-- Why the machine stops with a fault. -/
inductive Fault where
  /-- Raised by `step` in the shutdown state, which executes nothing and only RESET leaves (R62, R419,
  R415 "if shutdown then stop"). Safe. -/
  | shutdown
  deriving DecidableEq, Repr

/-- Why the model refuses a step. Each refusal is safe: nothing is claimed of what the hardware does. -/
inductive Refusal where
  /-- Raised by an arm of `exec` that has no meaning yet. Safe. -/
  | notModelled (mnemonic : String)
  /-- Raised by the fetch: bytes that no row of the document assigns (R155, U5). Safe. -/
  | undefinedOpcode
  /-- Raised by the fetch: segment-register code 6 or 7, or MOV to CS (R157, U6). Safe. -/
  | badSreg
  /-- Raised by the fetch: `FF /3` or `FF /5` with a register operand (R158, U6). Safe. -/
  | farIndirectRegister
  /-- Raised by the fetch: a prefix kind twice, or a byte F0H, F2H, F3H (R121, U7). Safe. -/
  | badPrefix
  /-- Raised by the fetch: 66H before MOV Sreg (R121, U8). Safe. -/
  | opsizeOnMovSreg
  /-- Raised by the fetch: 66H before a control transfer listed for 16 bits only (R159, U4). Safe. -/
  | opsize32ControlTransfer
  /-- Raised by POP m whose address is formed with ESP as SIB base (R214, U9). Safe. -/
  | popMemEspBase
  /-- Raised by IN and OUT whose ports run past 0FFFFH (R102, U12). Safe. -/
  | ioPast64K
  /-- Raised by the fetch of a byte stored to since the last taken control transfer (R113, U13). Safe. -/
  | selfModifyingCode
  /-- Raised by `step` at an instruction boundary with TF = 1 (R47, R422, U14). Safe. -/
  | tfSet
  /-- Raised by every access to an address outside MEM_PRESENT (R80, D5). Safe. -/
  | memNotPresent (addr : Nat)
  deriving DecidableEq, Repr

/-- INIT_STATE, the launch parameter that gives what RESET does not state (R451). `ip` is EIP[15:0]; its
upper half is required to be 0. Of `flags` only the undescribed bits count. -/
structure InitState where
  regs : Regs
  segs : Segs
  ip : Word
  flags : EFlags
  mem : Memory
  present : List Region
  mmio : List Region
  deriving DecidableEq, Repr

/-- The described flags cleared, the others kept (R71). -/
def EFlags.resetDescribed (f : EFlags) : EFlags :=
  { f with cf := false, pf := false, af := false, zf := false, sf := false, tf := false, ief := false,
           ovf := false }

/-- The state right after RESET for a given INIT_STATE (R70 to R72, R450, R451). -/
def State.resetWith (i : InitState) : State where
  regs := i.regs
  segs := i.segs
  eip := i.ip.setWidth 32
  flags := i.flags.resetDescribed
  inhibit := false
  inhibitMaskable := false
  shutdown := false
  intr := none
  nmi := 0
  resetSignal := false
  mem := i.mem
  present := i.present
  mmio := i.mmio
  deviceIn := []
  deviceTrace := []
  ioIn := []
  ioTrace := []
  cycles := 0
  stored := []
  draws := 0

/-- The INIT_STATE of this model: the values G6 gives for the family (log entry 5), zero for the general
registers (log entry 6), no byte listed (log entry 7), all of the address space populated and no device in
it (log entry 8). -/
def InitState.default : InitState where
  regs := ⟨0, 0, 0, 0, 0, 0, 0, 0⟩
  segs := ⟨0, 0xF000, 0, 0, 0, 0⟩
  ip := 0xFFF0
  flags := ⟨false, true, false, false, false, false, false, false, false, false, false, false, false, false,
    false, false, 0⟩
  mem := []
  present := [⟨0, 2 ^ 32⟩]
  mmio := []

/-- The state right after RESET (R450). -/
def State.reset : State := State.resetWith InitState.default

end Sys2Proof.Machine
end

