-- ==== Sys2Proof/Machine/Flags.lean ====
section
/-!
DEFINITION. The flag computations: the functions of R50 to R56, the conditions of R320, the flag rules of
the shifts and rotates (R304, R309), and the FLAGS word. A rule of the table of R49 is a `StatusWrite`:
what happens to each of the six status flags.
-/

namespace Sys2Proof.Machine

/-- An entry of the table of R49: unchanged (`-`), given a value (`M`, `0`, `1`), or undefined (`U`). -/
inductive FlagWrite where
  | keep
  | put (b : Bool)
  | undef
  deriving DecidableEq, Repr

/-- A row of the table of R49. -/
structure StatusWrite where
  ovf : FlagWrite
  sf : FlagWrite
  zf : FlagWrite
  af : FlagWrite
  pf : FlagWrite
  cf : FlagWrite
  deriving DecidableEq, Repr

/-- The flag after a `FlagWrite`: an undefined flag is the free draw number `k` (R14, R56). -/
def FlagWrite.apply (u : FlagWrite) (old : Bool) (k : Nat) : Bool :=
  match u with
  | .keep => old
  | .put b => b
  | .undef => Config.undefinedBit k

/-- Whether a row has an undefined flag. -/
def StatusWrite.drawsAny (u : StatusWrite) : Bool :=
  decide (u.ovf = .undef) || decide (u.sf = .undef) || decide (u.zf = .undef) ||
    decide (u.af = .undef) || decide (u.pf = .undef) || decide (u.cf = .undef)

/-- The flags after a row of R49, the draws numbered from `k`, one for each flag (R14, R56). -/
def StatusWrite.apply (u : StatusWrite) (f : EFlags) (k : Nat) : EFlags :=
  { f with
    ovf := u.ovf.apply f.ovf k
    sf := u.sf.apply f.sf (k + 1)
    zf := u.zf.apply f.zf (k + 2)
    af := u.af.apply f.af (k + 3)
    pf := u.pf.apply f.pf (k + 4)
    cf := u.cf.apply f.cf (k + 5) }

/-- Parity: 1 when bits 7:0 hold an even number of 1 bits (R50). -/
def parity {n : Nat} (r : BitVec n) : Bool :=
  decide (([0, 1, 2, 3, 4, 5, 6, 7].countP fun i => r.getLsbD i) % 2 = 0)

/-- SF, ZF and PF of a result (R51), the other flags as in `u`. -/
def StatusWrite.szp {n : Nat} (u : StatusWrite) (r : BitVec n) : StatusWrite :=
  { u with sf := .put r.msb, zf := .put (decide (r = 0)), pf := .put (parity r) }

/-- No flag changes. -/
def keepFlags : StatusWrite := ⟨.keep, .keep, .keep, .keep, .keep, .keep⟩

/-- Every status flag is undefined (DIV and IDIV, R258, R259). -/
def undefFlags : StatusWrite := ⟨.undef, .undef, .undef, .undef, .undef, .undef⟩

/-- Whether an exact integer lies outside the signed range of `n` bits (R7, R52). -/
def outOfRange (n : Nat) (x : Int) : Bool :=
  decide (x < -(2 ^ (n - 1) : Int)) || decide ((2 ^ (n - 1) : Int) ≤ x)

/-- The sum of R52, modulo 2^n. -/
def addResult {n : Nat} (a b : BitVec n) (c : Bool) : BitVec n :=
  BitVec.ofNat n (a.toNat + b.toNat + c.toNat)

/-- AddFlags (R52). -/
def addFlags {n : Nat} (a b : BitVec n) (c : Bool) : StatusWrite :=
  StatusWrite.szp
    { keepFlags with
      cf := .put (decide (2 ^ n ≤ a.toNat + b.toNat + c.toNat))
      ovf := .put (outOfRange n (a.toInt + b.toInt + c.toNat))
      af := .put (decide (16 ≤ a.toNat % 16 + b.toNat % 16 + c.toNat)) }
    (addResult a b c)

/-- The difference of R53, modulo 2^n. -/
def subResult {n : Nat} (a b : BitVec n) (c : Bool) : BitVec n :=
  BitVec.ofInt n ((a.toNat : Int) - b.toNat - c.toNat)

/-- SubFlags (R53). -/
def subFlags {n : Nat} (a b : BitVec n) (c : Bool) : StatusWrite :=
  StatusWrite.szp
    { keepFlags with
      cf := .put (decide ((a.toNat : Int) - b.toNat - c.toNat < 0))
      ovf := .put (outOfRange n (a.toInt - b.toInt - c.toNat))
      af := .put (decide (((a.toNat % 16 : Nat) : Int) - (b.toNat % 16 : Nat) - c.toNat < 0)) }
    (subResult a b c)

/-- LogicFlags (R54). -/
def logicFlags {n : Nat} (r : BitVec n) : StatusWrite :=
  StatusWrite.szp { keepFlags with cf := .put false, ovf := .put false, af := .undef } r

/-- INC and DEC leave CF unchanged (R55). -/
def StatusWrite.keepCf (u : StatusWrite) : StatusWrite := { u with cf := .keep }

/-- NEG leaves AF undefined (R251). -/
def StatusWrite.undefAf (u : StatusWrite) : StatusWrite := { u with af := .undef }

/-- MUL and IMUL: CF = OF = `b`, the others undefined (R252 to R257). -/
def mulFlags (b : Bool) : StatusWrite := { undefFlags with cf := .put b, ovf := .put b }

/-- BT: CF is the selected bit, the others undefined (R285, R286). -/
def btFlags (b : Bool) : StatusWrite := { undefFlags with cf := .put b }

/-- The flags of SAL, SHR and SAR (R304): `count` is the masked count, `cf` the last bit shifted out,
`of1` the OF of a single shift, `r` the result. -/
def shiftFlags {n : Nat} (count : Nat) (cf of1 : Bool) (r : BitVec n) : StatusWrite :=
  if count = 0 then { undefFlags with cf := .keep }
  else StatusWrite.szp
    { keepFlags with cf := .put cf, af := .undef, ovf := if count = 1 then .put of1 else .undef } r

/-- The flags of ROL, ROR, RCL and RCR (R309). -/
def rotateFlags (count : Nat) (cf of1 : Bool) : StatusWrite :=
  if count = 0 then { keepFlags with ovf := .undef }
  else { keepFlags with cf := .put cf, ovf := if count = 1 then .put of1 else .undef }

/-- CF alone is written (STC, CLC, CMC; R360 to R362). -/
def carryOnly (b : Bool) : StatusWrite := { keepFlags with cf := .put b }

/-- The sixteen conditions (R320). -/
inductive Cond where
  | o | no | b | ae | e | ne | be | a | s | ns | p | np | l | ge | le | g
  deriving DecidableEq, Repr

/-- When a condition is true (R320). -/
def Cond.holds (c : Cond) (f : EFlags) : Bool :=
  match c with
  | .o => f.ovf
  | .no => !f.ovf
  | .b => f.cf
  | .ae => !f.cf
  | .e => f.zf
  | .ne => !f.zf
  | .be => f.cf || f.zf
  | .a => !f.cf && !f.zf
  | .s => f.sf
  | .ns => !f.sf
  | .p => f.pf
  | .np => !f.pf
  | .l => f.sf != f.ovf
  | .ge => f.sf == f.ovf
  | .le => f.zf || (f.sf != f.ovf)
  | .g => !f.zf && (f.sf == f.ovf)

/-- FLAGS, EFLAGS[15:0], as a word (R44). -/
def EFlags.toFlags (f : EFlags) : Word :=
  BitVec.ofBool f.bit15 ++ BitVec.ofBool f.bit14 ++ BitVec.ofBool f.bit13 ++ BitVec.ofBool f.bit12 ++
  BitVec.ofBool f.ovf ++ BitVec.ofBool f.bit10 ++ BitVec.ofBool f.ief ++ BitVec.ofBool f.tf ++
  BitVec.ofBool f.sf ++ BitVec.ofBool f.zf ++ BitVec.ofBool f.bit5 ++ BitVec.ofBool f.af ++
  BitVec.ofBool f.bit3 ++ BitVec.ofBool f.pf ++ BitVec.ofBool f.bit1 ++ BitVec.ofBool f.cf

/-- EFLAGS with FLAGS loaded from a word, EFLAGS[31:16] unchanged (R336). -/
def EFlags.loadFlags (f : EFlags) (v : Word) : EFlags where
  cf := v.getLsbD 0
  bit1 := v.getLsbD 1
  pf := v.getLsbD 2
  bit3 := v.getLsbD 3
  af := v.getLsbD 4
  bit5 := v.getLsbD 5
  zf := v.getLsbD 6
  sf := v.getLsbD 7
  tf := v.getLsbD 8
  ief := v.getLsbD 9
  bit10 := v.getLsbD 10
  ovf := v.getLsbD 11
  bit12 := v.getLsbD 12
  bit13 := v.getLsbD 13
  bit14 := v.getLsbD 14
  bit15 := v.getLsbD 15
  upper := f.upper

/-- The undescribed bits of FLAGS replaced by those of a word (R48, U2). -/
def EFlags.withUndescribed (f : EFlags) (v : Word) : EFlags :=
  { f with
    bit1 := v.getLsbD 1, bit3 := v.getLsbD 3, bit5 := v.getLsbD 5, bit10 := v.getLsbD 10
    bit12 := v.getLsbD 12, bit13 := v.getLsbD 13, bit14 := v.getLsbD 14, bit15 := v.getLsbD 15 }

/-- The FLAGS word the interrupt sequence pushes (R402): the undescribed bits are free (R48, U2), and at a
divide error the six status flags too (R260, D16). The draws are numbered from `k`. -/
def EFlags.image (f : EFlags) (divideError : Bool) (k : Nat) : Word :=
  (((if divideError then undefFlags else keepFlags).apply f k).withUndescribed
    (Config.undefinedWord (k + 6))).toFlags

end Sys2Proof.Machine
end

