-- ==== Sys2Proof/Machine/Ops.lean ====
section
/-!
DEFINITION. The named operations on registers, flags, memory, the stack and the I/O space; the interrupt
sequence, which takes an exception or an external interrupt (R402), and the return from it (R336); and how
an instruction ends.
-/

namespace Sys2Proof

/-- The register that holds the byte register of a code: AL, CL, DL, BL, AH, CH, DH, BH lie in EAX, ECX,
EDX, EBX (R32, R34). -/
def Reg.byteHome : Reg → Reg
  | .eax | .esp => .eax
  | .ecx | .ebp => .ecx
  | .edx | .esi => .edx
  | .ebx | .edi => .ebx

/-- Whether a code names AH, CH, DH or BH as a byte register (R34). -/
def Reg.byteHigh : Reg → Bool
  | .eax | .ecx | .edx | .ebx => false
  | .esp | .ebp | .esi | .edi => true

end Sys2Proof

namespace Sys2Proof.Machine

/-- Why an instruction does not complete with the effect its rule gives. -/
inductive Trap where
  /-- `raise InterruptN` (R11, R407). -/
  | exc (n : Byte)
  /-- `raise Interrupt0` of DIV and IDIV, whose pushed status flags are undefined (R260, D16). -/
  | divideError
  /-- A push that does not fit: the processor shuts down (R98). -/
  | shutdown
  /-- A case the spec leaves undefined: the run is refused. -/
  | refuse (r : Refusal)
  deriving DecidableEq, Repr

/-! ## Memory as a list of cells -/

/-- The byte at an address; an address that is not listed reads as 0 (log entry 7). -/
def Memory.get : Memory → Nat → Byte
  | [], _ => 0
  | (b, v) :: m, a => if a = b then v else if a < b then 0 else Memory.get m a

/-- The memory with one byte replaced; the byte 0 is not listed. -/
def Memory.set : Memory → Nat → Byte → Memory
  | [], a, x => if x = 0 then [] else [(a, x)]
  | (b, v) :: m, a, x =>
    if a < b then (if x = 0 then (b, v) :: m else (a, x) :: (b, v) :: m)
    else if a = b then (if x = 0 then m else (a, x) :: m)
    else (b, v) :: Memory.set m a x

/-- The memory with consecutive bytes replaced, the first at `a`. -/
def Memory.setBytes (m : Memory) (a : Nat) : List Byte → Memory
  | [] => m
  | x :: xs => Memory.setBytes (Memory.set m a x) (a + 1) xs

/-- Every listed address is at least `lo`, addresses rise strictly, lie below 2^32 (R80), and no byte
listed is 0. -/
def Memory.wfFrom : Nat → Memory → Bool
  | _, [] => true
  | lo, (a, v) :: m => decide (lo ≤ a) && decide (a < 2 ^ 32) && !decide (v = 0) && Memory.wfFrom (a + 1) m

/-- The canonical form of a memory: equal memories are equal lists. -/
def Memory.wf (m : Memory) : Bool := Memory.wfFrom 0 m

/-- `8 * w.bytes` bits at an address, little-endian (R84, R85). -/
def Memory.read (m : Memory) (a : Nat) : (w : Width) → BitVec w.bits
  | .byte => m.get a
  | .word => m.get (a + 1) ++ m.get a
  | .dword => m.get (a + 3) ++ m.get (a + 2) ++ m.get (a + 1) ++ m.get a

/-! ## Registers (R30 to R37) -/

/-- The 32-bit register with a code (R34). -/
def Regs.get (g : Regs) : Reg → Dword
  | .eax => g.eax | .ecx => g.ecx | .edx => g.edx | .ebx => g.ebx
  | .esp => g.esp | .ebp => g.ebp | .esi => g.esi | .edi => g.edi

def Regs.set (g : Regs) (r : Reg) (v : Dword) : Regs :=
  match r with
  | .eax => { g with eax := v } | .ecx => { g with ecx := v }
  | .edx => { g with edx := v } | .ebx => { g with ebx := v }
  | .esp => { g with esp := v } | .ebp => { g with ebp := v }
  | .esi => { g with esi := v } | .edi => { g with edi := v }

/-- The register of a width and a code (R31, R32, R34). -/
def Regs.read (g : Regs) (r : Reg) : (w : Width) → BitVec w.bits
  | .byte => (g.get r.byteHome).extractLsb' (if r.byteHigh then 8 else 0) 8
  | .word => (g.get r).extractLsb' 0 16
  | .dword => g.get r

/-- Bits 15:0 replaced, bits 31:16 kept (R33, D1). -/
def setLow16 (old : Dword) (v : Word) : Dword := old.extractLsb' 16 16 ++ v

/-- Bits 7:0 replaced, the others kept (R33, D1). -/
def setLow8 (old : Dword) (v : Byte) : Dword := old.extractLsb' 8 24 ++ v

/-- Bits 15:8 replaced, the others kept (R33, D1). -/
def setHigh8 (old : Dword) (v : Byte) : Dword := old.extractLsb' 16 16 ++ v ++ old.extractLsb' 0 8

/-- The register of a width and a code replaced, the rest of its 32-bit register kept (R33). -/
def Regs.write (g : Regs) (r : Reg) : (w : Width) → BitVec w.bits → Regs
  | .byte, v =>
    let old := g.get r.byteHome
    g.set r.byteHome (if r.byteHigh then setHigh8 old v else setLow8 old v)
  | .word, v => g.set r (setLow16 (g.get r) v)
  | .dword, v => g.set r v

def Segs.get (g : Segs) : SReg → Word
  | .es => g.es | .cs => g.cs | .ss => g.ss | .ds => g.ds | .fs => g.fs | .gs => g.gs

def Segs.set (g : Segs) (r : SReg) (v : Word) : Segs :=
  match r with
  | .es => { g with es := v } | .cs => { g with cs := v } | .ss => { g with ss := v }
  | .ds => { g with ds := v } | .fs => { g with fs := v } | .gs => { g with gs := v }

/-! ## Updates of the state -/

/-- `Reg(code, n)` (R137). -/
def State.reg (s : State) (r : Reg) (w : Width) : BitVec w.bits := s.regs.read r w

/-- `Reg(code, n) <- v` (R137). -/
def State.setReg (s : State) (r : Reg) (w : Width) (v : BitVec w.bits) : State :=
  { s with regs := s.regs.write r w v }

/-- `Sreg[i]` (R8). -/
def State.sreg (s : State) (r : SReg) : Word := s.segs.get r

/-- `Sreg[i] <- v` (R8). -/
def State.setSreg (s : State) (r : SReg) (v : Word) : State :=
  { s with segs := s.segs.set r v }

/-- SP (R95). -/
def State.sp (s : State) : Word := s.reg .esp .word

/-- `SP <- v`; ESP[31:16] is kept (R95). -/
def State.setSp (s : State) (v : Word) : State := s.setReg .esp .word v

/-- `EIP <- v`. -/
def State.setEip (s : State) (v : Dword) : State := { s with eip := v }

/-- The status flags after a row of R49; undefined flags use up free draws (R56). -/
def State.writeStatus (s : State) (u : StatusWrite) : State :=
  { s with
    flags := u.apply s.flags s.draws
    draws := if u.drawsAny then s.draws + 6 else s.draws }

/-- `IF <- b`. -/
def State.setIf (s : State) (b : Bool) : State := { s with flags := { s.flags with ief := b } }

/-- The MOV SS and POP SS window opened (R60). -/
def State.openInhibit (s : State) : State := { s with inhibit := true }

/-- Draws used up. -/
def State.drew (s : State) (n : Nat) : State := { s with draws := s.draws + n }

/-- A taken control transfer: `EIP <- v`, and what is fetched from now on was fetched after every store so
far (R113, U13). -/
def State.jump (s : State) (v : Dword) : State := { s with eip := v, stored := [] }

/-- Bytes stored to plain memory at consecutive linear addresses, and remembered for U13 (R85, R113). -/
def State.storeBytes (s : State) (a : Nat) (bs : List Byte) : State :=
  { s with
    mem := s.mem.setBytes a bs
    stored := ((List.range bs.length).map (a + ·)).reverse ++ s.stored }

/-! ## Memory access (R82 to R91) -/

/-- The linear, which is the physical, address of an offset in a segment (R39, R82, R83). -/
def State.linear (s : State) (sr : SReg) (off : Nat) : Nat := (s.sreg sr).toNat * 16 + off

/-- Whether an address lies in a list of regions. -/
def inRegions (rs : List Region) (a : Nat) : Bool :=
  rs.any fun r => decide (r.base ≤ a) && decide (a < r.base + r.size)

/-- The `n` bytes at `a` are populated (D5). -/
def State.checkPresent (s : State) (a : Nat) : Nat → Except Trap Unit
  | 0 => .ok ()
  | n + 1 =>
    if inRegions s.present a then State.checkPresent s (a + 1) n
    else .error (.refuse (.memNotPresent a))

/-! Memory-mapped devices (R103). A byte of MMIO_REGIONS is loaded from and stored to like a byte of memory;
what a load gives is the device's to choose, as what IN reads is the platform's, and each access is recorded
(log entry 32). -/

/-- The byte a memory-mapped device presents to the next read: the host's script, or a free value when it
has none. -/
def State.deviceInput (s : State) : Byte :=
  match s.deviceIn with
  | v :: _ => v
  | [] => Config.deviceByte s.draws

/-- The host's script after a device read has used its first byte, or a free draw used up. -/
def State.usedDeviceInput (s : State) : State :=
  { s with deviceIn := s.deviceIn.tail, draws := if s.deviceIn.isEmpty then s.draws + 1 else s.draws }

/-- The trace with one more device access. -/
def State.logDevice (s : State) (dir : IoDir) (a : Nat) (v : Byte) : State :=
  { s with deviceTrace := s.deviceTrace ++ [⟨dir, a, v⟩] }

/-- `byte[A]` read: a device presents its byte, memory has no read side effect (R85, R88, R103). -/
def State.loadByte (s : State) (a : Nat) : Byte × State :=
  if inRegions s.mmio a then (s.deviceInput, s.usedDeviceInput.logDevice .input a s.deviceInput)
  else (s.mem.get a, s)

/-- The bytes of an operand read, the lowest address first, little-endian (R84, R85). -/
def State.loadBytes (s : State) (a : Nat) : (w : Width) → BitVec w.bits × State
  | .byte => s.loadByte a
  | .word =>
    let (b0, s0) := s.loadByte a
    let (b1, s1) := s0.loadByte (a + 1)
    (b1 ++ b0, s1)
  | .dword =>
    let (b0, s0) := s.loadByte a
    let (b1, s1) := s0.loadByte (a + 1)
    let (b2, s2) := s1.loadByte (a + 2)
    let (b3, s3) := s2.loadByte (a + 3)
    (b3 ++ b2 ++ b1 ++ b0, s3)

/-- A store to the byte at `a` remembered for the fetch (R113, U13). -/
def State.remember (s : State) (a : Nat) : State := { s with stored := a :: s.stored }

/-- `byte[A] <- x`: presented to a device, or stored in memory (R85, R103). DESIGN CHOICE (log entry 13): a
byte presented to a device is a store of U13 as one stored in memory is, for R113 speaks of any byte, so that a
fetch of it before a taken control transfer is refused. -/
def State.putByte (s : State) (a : Nat) (x : Byte) : State :=
  if inRegions s.mmio a then (s.logDevice .output a x).remember a else s.storeBytes a [x]

/-- Consecutive bytes written, the lowest address first (R85). -/
def State.putBytes (s : State) (a : Nat) : List Byte → State
  | [] => s
  | x :: xs => (s.putByte a x).putBytes (a + 1) xs

/-- `check_limit(off, n)`: the operand lies within offsets 0 to 0FFFFH, else Interrupt 13 (R90, R406). -/
def checkLimit (off n : Nat) : Except Trap Unit :=
  if off + n ≤ 0x10000 then .ok () else .error (.exc 13)

/-- A read at a linear address: the value, and the state after what a device read does (R85, R401). -/
def State.readLinear (s : State) (a : Nat) (w : Width) : Except Trap (BitVec w.bits × State) := do
  s.checkPresent a w.bytes
  .ok (s.loadBytes a w)

/-- A write at a linear address (R85). -/
def State.writeLinear (s : State) (a : Nat) (w : Width) (v : BitVec w.bits) : Except Trap State := do
  s.checkPresent a w.bytes
  .ok (s.putBytes a (leBytes w v))

/-- `MemRead(seg, off, n)` (R85). -/
def State.memRead (s : State) (sr : SReg) (off : Nat) (w : Width) :
    Except Trap (BitVec w.bits × State) := do
  checkLimit off w.bytes
  s.readLinear (s.linear sr off) w

/-- `MemWrite(seg, off, n, v)` (R85). -/
def State.memWrite (s : State) (sr : SReg) (off : Nat) (w : Width) (v : BitVec w.bits) :
    Except Trap State := do
  checkLimit off w.bytes
  s.writeLinear (s.linear sr off) w v

/-! ## The stack (R95 to R98) -/

/-- `Push_w(v)` (R96): the new SP is checked first, and a push that does not fit shuts down (R98). -/
def State.push (s : State) (w : Width) (v : BitVec w.bits) : Except Trap State :=
  let tmp := s.sp - BitVec.ofNat 16 w.bytes
  if tmp.toNat + w.bytes ≤ 0x10000 then
    (s.setSp tmp).writeLinear (s.linear .ss tmp.toNat) w v
  else .error .shutdown

/-- The `stack_check` of each of `n` words to be pushed, made before the first is written: one that does not
fit shuts down (R98, R331, R402). -/
def State.checkFrame (s : State) (n : Nat) : Except Trap Unit :=
  if (List.range n).all fun k => decide ((s.sp - BitVec.ofNat 16 (2 * k + 2)).toNat + 2 ≤ 0x10000) then .ok ()
  else .error .shutdown

/-- `Pop_w()` (R97): the value and the state with SP moved. Past offset 0FFFFH it is Interrupt 13
(R98, U11). -/
def State.pop (s : State) (w : Width) : Except Trap (BitVec w.bits × State) := do
  checkLimit s.sp.toNat w.bytes
  let (v, s1) ← s.readLinear (s.linear .ss s.sp.toNat) w
  .ok (v, s1.setSp (s.sp + BitVec.ofNat 16 w.bytes))

/-! ## The I/O space (R100 to R102) -/

/-- The value the platform presents to the next IN: the host's script, or a free value when it has none
(R102, D13). -/
def State.portInput (s : State) : Dword :=
  match s.ioIn with
  | v :: _ => v
  | [] => Config.portValue s.draws

/-- An access past port 0FFFFH is refused (U12). -/
def checkPorts (port : Word) (w : Width) : Except Trap Unit :=
  if port.toNat + w.bytes ≤ 0x10000 then .ok () else .error (.refuse .ioPast64K)

/-- The I/O trace with one more access (D13). -/
def State.logIo (s : State) (dir : IoDir) (port : Word) (w : Width) (v : BitVec w.bits) : State :=
  { s with ioTrace := s.ioTrace ++ [⟨dir, port, w, v.setWidth 32⟩] }

/-- The host's script after an IN has used its first value, or a free draw used up. -/
def State.usedInput (s : State) : State :=
  { s with ioIn := s.ioIn.tail, draws := if s.ioIn.isEmpty then s.draws + 1 else s.draws }

/-- `IoRead(port, n)` (R102). -/
def State.ioRead (s : State) (port : Word) (w : Width) : Except Trap (BitVec w.bits × State) := do
  checkPorts port w
  let v := s.portInput.setWidth w.bits
  .ok (v, s.usedInput.logIo .input port w v)

/-- `IoWrite(port, n, v)` (R102). -/
def State.ioWrite (s : State) (port : Word) (w : Width) (v : BitVec w.bits) : Except Trap State := do
  checkPorts port w
  .ok (s.logIo .output port w v)

/-! ## Taking an interrupt or an exception, and returning (R400 to R417) -/

/-- The linear base of the interrupt table (R104, D8). -/
def tableBase : Nat := 0

/-- `Vector(n)`: selector and offset of the handler, and the state after the two reads (R401, R99). -/
def State.vector (s : State) (n : Byte) : Except Trap (Word × Word × State) := do
  let (off, s1) ← s.readLinear (tableBase + 4 * n.toNat) .word
  let (sel, s2) ← s1.readLinear (tableBase + 4 * n.toNat + 2) .word
  .ok (sel, off, s2)

/-- The last steps of the interrupt sequence: IF and TF cleared, the handler's CS:EIP, `inhibit` cleared
(R402). The sequence costs INT_CYCLES (R475). -/
def State.enterHandler (s : State) (sel off : Word) : State :=
  let s := { s with
    flags := { s.flags with ief := false, tf := false }
    inhibit := false
    cycles := s.cycles + Config.intCycles }
  (s.setSreg .cs sel).jump (off.setWidth 32)

/-- `InterruptSequence(n, ret_ip)` (R402). DESIGN CHOICE (log entry 24): the whole frame is checked for room
before any word of it is checked for being populated, and the table is read before either. -/
def State.interruptSequence (s : State) (n : Byte) (ret : Word) (divideError : Bool) :
    Except Trap State := do
  let (sel, off, s0) ← s.vector n
  s0.checkFrame 3
  let s1 ← (s0.drew 7).push .word (s0.flags.image divideError s0.draws)
  let s2 ← s1.push .word (s.sreg .cs)
  let s3 ← s2.push .word ret
  .ok (s3.enterHandler sel off)

/-- What taking interrupt `n` comes to: the handler's first instruction is next, or the frame does not fit
and the processor shuts down (R402, R419), or the frame or the table is not populated (D5). The sequence
raises nothing itself (R402). -/
def State.interrupt (s : State) (n : Byte) (ret : Word) (divideError : Bool) :
    Host.Outcome State Fault Refusal :=
  match s.interruptSequence n ret divideError with
  | .ok s' => .next s'
  | .error (.refuse r) => .refused r
  | .error _ => .next { s with shutdown := true }

/-- What a trap does to the instruction that began at `s` (R407): every effect is discarded and the
exception is taken with the offset of the instruction itself. -/
def State.deliver (s : State) (t : Trap) : Host.Outcome State Fault Refusal :=
  match t with
  | .exc n => s.interrupt n (s.eip.extractLsb' 0 16) false
  | .divideError => s.interrupt 0 (s.eip.extractLsb' 0 16) true
  | .shutdown => .next { s with shutdown := true }
  | .refuse r => .refused r

/-- `next_ip` (R41). -/
def State.nextIp (s : State) (len : Nat) : Dword := s.eip + BitVec.ofNat 32 len

/-- The end of an instruction that transfers no control: `EIP <- next_ip`, or its trap (R41, R407). -/
def State.retire (s : State) (len : Nat) (r : Except Trap State) : Host.Outcome State Fault Refusal :=
  match r with
  | .ok s' => .next (s'.setEip (s.nextIp len))
  | .error t => s.deliver t

/-- The end of a control transfer, which has set EIP itself, or its trap (R407). -/
def State.retireJump (s : State) (r : Except Trap State) : Host.Outcome State Fault Refusal :=
  match r with
  | .ok s' => .next s'
  | .error t => s.deliver t

/-- The return from an interrupt or exception: IP, CS and FLAGS are popped (R336, R416). -/
def State.returnFromInterrupt (s : State) : Except Trap State := do
  let (ip, s1) ← s.pop .word
  let (cs, s2) ← s1.pop .word
  let (fl, s3) ← s2.pop .word
  .ok (({ s3 with flags := s3.flags.loadFlags fl }.setSreg .cs cs).jump (ip.setWidth 32))

end Sys2Proof.Machine
end

