-- ==== Sys2Proof/Machine/Operands.lean ====
section
/-!
DEFINITION. The operand forms: effective addresses and their segments (R131 to R136), the r/m operand
(R137), the forms of R243 and R284, the shift count (R300), and the register pairs of multiplication and
division (R252, R258).
-/

namespace Sys2Proof

/-- A 16-bit form's displacement, disp8 sign-extended (R131, R143). -/
def Disp16.value : Disp16 → Word
  | .none => 0
  | .d8 v => v.signExtend 16
  | .d16 v => v

/-- A 32-bit form's displacement, disp8 sign-extended (R132, R143). -/
def Disp32.value : Disp32 → Dword
  | .none => 0
  | .d8 v => v.signExtend 32
  | .d32 v => v

/-- `2^ss` (R133). -/
def Scale.factor : Scale → Dword
  | .x1 => 1 | .x2 => 2 | .x4 => 4 | .x8 => 8

/-- The default segment of a 16-bit base: SS with BP, else DS (R92, R131). -/
def Base16.segment : Base16 → SReg
  | .bpsi | .bpdi | .bp => .ss
  | .bxsi | .bxdi | .si | .di | .bx => .ds

/-- The default segment of a 32-bit base register: SS with ESP or EBP, else DS (R92, R132, R133). -/
def Reg.segment : Reg → SReg
  | .esp | .ebp => .ss
  | .eax | .ecx | .edx | .ebx | .esi | .edi => .ds

/-- The default segment of a memory operand (R92). -/
def Mem.segment : Mem → SReg
  | .base16 b _ => b.segment
  | .abs16 _ => .ds
  | .base32 b _ => b.segment
  | .abs32 _ => .ds
  | .sib b _ _ _ => b.segment
  | .sibAbs _ _ _ => .ds

/-- `Seg(m)`: the override or the default (R93, R135). -/
def Mem.seg (p : Prefixes) (m : Mem) : SReg := p.seg.getD m.segment

/-- Whether the base register of a memory operand is ESP, as a SIB base (R214, U9). -/
def Mem.espBase : Mem → Bool
  | .sib b _ _ _ => decide (b = .esp)
  | .base16 _ _ | .abs16 _ | .base32 _ _ | .abs32 _ | .sibAbs _ _ _ => false

def RM.espBase : RM → Bool
  | .reg _ => false
  | .mem m => m.espBase

/-- The offset of a moffs operand (R136). -/
def Moffs.offset : Moffs → Nat
  | .o16 v => v.toNat
  | .o32 v => v.toNat

/-- The operand width of a form (R243). -/
@[reducible] def AluForm.width : AluForm → Width
  | .accImm w _ | .rmImm w _ _ | .rmImm8 w _ _ | .rmReg w _ _ | .regRm w _ _ => w

/-- DEST of a form (R243). -/
def AluForm.dest : AluForm → RM
  | .accImm _ _ => .reg .eax
  | .rmImm _ rm _ | .rmImm8 _ rm _ | .rmReg _ rm _ => rm
  | .regRm _ r _ => .reg r

/-- The operand width of a form of TEST (R284). -/
@[reducible] def TestForm.width : TestForm → Width
  | .accImm w _ | .rmImm w _ _ | .rmReg w _ _ => w

/-- LeftSRC of TEST (R284). -/
def TestForm.left : TestForm → RM
  | .accImm _ _ => .reg .eax
  | .rmImm _ rm _ | .rmReg _ rm _ => rm

end Sys2Proof

namespace Sys2Proof.Machine

/-! ## Effective addresses -/

/-- The sum of the 16-bit registers of a base, modulo 2^16 (R131). -/
def State.base16 (s : State) : Base16 → Word
  | .bxsi => s.reg .ebx .word + s.reg .esi .word
  | .bxdi => s.reg .ebx .word + s.reg .edi .word
  | .bpsi => s.reg .ebp .word + s.reg .esi .word
  | .bpdi => s.reg .ebp .word + s.reg .edi .word
  | .si => s.reg .esi .word
  | .di => s.reg .edi .word
  | .bp => s.reg .ebp .word
  | .bx => s.reg .ebx .word

/-- The scaled index of a SIB byte (R133). -/
def State.index (s : State) (idx : Option Reg) (ss : Scale) : Dword :=
  match idx with
  | none => 0
  | some r => s.reg r .dword * ss.factor

/-- `Addr(m)`: modulo 2^16 with 16-bit addressing, modulo 2^32 with 32-bit addressing (R131 to R135). -/
def State.addr (s : State) : Mem → Dword
  | .base16 b disp => (s.base16 b + disp.value).setWidth 32
  | .abs16 v => v.setWidth 32
  | .base32 b disp => s.reg b .dword + disp.value
  | .abs32 v => v
  | .sib b idx ss disp => s.reg b .dword + s.index idx ss + disp.value
  | .sibAbs idx ss v => s.index idx ss + v

/-! ## The r/m operand (R137) -/

/-- `RM_read(n)`: the value, and the state after what a device read does. -/
def State.readRM (s : State) (p : Prefixes) (rm : RM) (w : Width) : Except Trap (BitVec w.bits × State) :=
  match rm with
  | .reg r => .ok (s.reg r w, s)
  | .mem m => s.memRead (m.seg p) (s.addr m).toNat w

/-- `RM_write(n, v)` on the state `t`, the address computed in the state `s` before the instruction
changed a register (R134, R137, D17). -/
def State.writeRM (s t : State) (p : Prefixes) (rm : RM) (w : Width) (v : BitVec w.bits) :
    Except Trap State :=
  match rm with
  | .reg r => .ok (t.setReg r w v)
  | .mem m => t.memWrite (m.seg p) (s.addr m).toNat w v

/-- A far pointer in memory: selector, offset and the state after the reads, the offset word first (R99,
R328). The operand of four bytes is checked against the limit whole (R90, R328). -/
def State.readFar (s : State) (p : Prefixes) (m : Mem) : Except Trap (Word × Word × State) := do
  checkLimit (s.addr m).toNat 4
  let (off, s1) ← s.memRead (m.seg p) (s.addr m).toNat .word
  let (sel, s2) ← s1.memRead (m.seg p) ((s.addr m).toNat + 2) .word
  .ok (sel, off, s2)

/-- The segment of a moffs operand: the override or DS (R136). -/
def moffsSeg (p : Prefixes) : SReg := p.seg.getD .ds

/-! ## The forms of two-operand instructions -/

/-- The value of SRC of a form, and the state after it is read (R242, R243). -/
def State.aluSrc (s : State) (p : Prefixes) : (f : AluForm) → Except Trap (BitVec f.width.bits × State)
  | .accImm _ imm => .ok (imm, s)
  | .rmImm _ _ imm => .ok (imm, s)
  | .rmImm8 w _ imm => .ok (imm.signExtend w.bits, s)
  | .rmReg w _ r => .ok (s.reg r w, s)
  | .regRm w _ rm => s.readRM p rm w

/-- The value of RightSRC of TEST (R284). -/
def State.testSrc (s : State) : (f : TestForm) → BitVec f.width.bits
  | .accImm _ imm => imm
  | .rmImm _ _ imm => imm
  | .rmReg w _ r => s.reg r w

/-- COUNT: the raw count modulo 32 (R300). -/
def State.count (s : State) : Count → Nat
  | .one => 1
  | .cl => (s.reg .ecx .byte).toNat % 32
  | .imm n => n.toNat % 32

/-! ## Register pairs (R252, R258, R264) -/

/-- The register of the high half: AH, DX, EDX. -/
def highReg : Width → Reg
  | .byte => .esp
  | .word | .dword => .edx

/-- The accumulator pair written: AH:AL, DX:AX or EDX:EAX. -/
def State.setPair (s : State) (w : Width) (hi lo : BitVec w.bits) : State :=
  (s.setReg .eax w lo).setReg (highReg w) w hi

/-- The dividend: AH:AL (AX), DX:AX or EDX:EAX. -/
def State.pair (s : State) (w : Width) : BitVec (w.bits + w.bits) :=
  s.reg (highReg w) w ++ s.reg .eax w

end Sys2Proof.Machine
end

