-- ==== Sys2Proof/Machine/Arithmetic.lean ====
section
/-!
DEFINITION. Binary arithmetic (`41_binary_arithmetic.md`): ADD, ADC, SUB, SBB, CMP, INC, DEC, NEG, MUL,
IMUL, DIV and IDIV.
-/

namespace Sys2Proof.Machine

/-- A two-operand instruction that writes its result: `a <- DEST; b <- SRC; DEST <- r`, and the flags
(R243). -/
def State.binary (s : State) (p : Prefixes) (f : AluForm)
    (g : (n : Nat) → BitVec n → BitVec n → BitVec n × StatusWrite) : Except Trap State := do
  let (a, s1) ← s.readRM p f.dest f.width
  let (b, s2) ← s1.aluSrc p f
  let (r, u) := g f.width.bits a b
  s.writeRM (s2.writeStatus u) p f.dest f.width r

/-- A one-operand read-modify-write instruction with its flags (R137). -/
def State.unary (s : State) (p : Prefixes) (w : Width) (rm : RM)
    (g : BitVec w.bits → BitVec w.bits × StatusWrite) : Except Trap State := do
  let (a, s1) ← s.readRM p rm w
  let (r, u) := g a
  s.writeRM (s1.writeStatus u) p rm w r

/-- `AddFlags` with carry-in `c`: result and flags (R52). -/
def addWith (c : Bool) (n : Nat) (a b : BitVec n) : BitVec n × StatusWrite :=
  (addResult a b c, addFlags a b c)

/-- `SubFlags` with borrow-in `c`: result and flags (R53). -/
def subWith (c : Bool) (n : Nat) (a b : BitVec n) : BitVec n × StatusWrite :=
  (subResult a b c, subFlags a b c)

/-- INC: `AddFlags(a, 1, 0, n)` with CF kept (R55, R248). -/
def incremented {n : Nat} (a : BitVec n) : BitVec n × StatusWrite :=
  (addResult a 1 false, (addFlags a 1 false).keepCf)

/-- DEC: `SubFlags(a, 1, 0, n)` with CF kept (R55, R249). -/
def decremented {n : Nat} (a : BitVec n) : BitVec n × StatusWrite :=
  (subResult a 1 false, (subFlags a 1 false).keepCf)

/-- NEG: `SubFlags(0, a, 0, n)` with AF undefined (R251). -/
def negated {n : Nat} (a : BitVec n) : BitVec n × StatusWrite :=
  (subResult 0 a false, (subFlags 0 a false).undefAf)

/-- ADD (R244). -/
def execAdd (p : Prefixes) (f : AluForm) (s : State) : Host.Outcome State Fault Refusal :=
  s.retire (Instr.add p f).length (s.binary p f (addWith false))

/-- ADC (R245). -/
def execAdc (p : Prefixes) (f : AluForm) (s : State) : Host.Outcome State Fault Refusal :=
  s.retire (Instr.adc p f).length (s.binary p f (addWith s.flags.cf))

/-- SUB (R246). -/
def execSub (p : Prefixes) (f : AluForm) (s : State) : Host.Outcome State Fault Refusal :=
  s.retire (Instr.sub p f).length (s.binary p f (subWith false))

/-- SBB (R247). -/
def execSbb (p : Prefixes) (f : AluForm) (s : State) : Host.Outcome State Fault Refusal :=
  s.retire (Instr.sbb p f).length (s.binary p f (subWith s.flags.cf))

/-- CMP's effect: the flags of the subtraction, no operand written (R250). -/
def State.compare (s : State) (p : Prefixes) (f : AluForm) : Except Trap State := do
  let (a, s1) ← s.readRM p f.dest f.width
  let (b, s2) ← s1.aluSrc p f
  .ok (s2.writeStatus (subFlags a b false))

/-- CMP (R250). -/
def execCmp (p : Prefixes) (f : AluForm) (s : State) : Host.Outcome State Fault Refusal :=
  s.retire (Instr.cmp p f).length (s.compare p f)

/-- INC r/m (R248). -/
def execIncRm (p : Prefixes) (w : Width) (rm : RM) (s : State) : Host.Outcome State Fault Refusal :=
  s.retire (Instr.incRm p w rm).length (s.unary p w rm incremented)

/-- INC r16/r32 (R248). -/
def execIncR (p : Prefixes) (r : Reg) (s : State) : Host.Outcome State Fault Refusal :=
  s.retire (Instr.incR p r).length (s.unary p p.opSize (.reg r) incremented)

/-- DEC r/m (R249). -/
def execDecRm (p : Prefixes) (w : Width) (rm : RM) (s : State) : Host.Outcome State Fault Refusal :=
  s.retire (Instr.decRm p w rm).length (s.unary p w rm decremented)

/-- DEC r16/r32 (R249). -/
def execDecR (p : Prefixes) (r : Reg) (s : State) : Host.Outcome State Fault Refusal :=
  s.retire (Instr.decR p r).length (s.unary p p.opSize (.reg r) decremented)

/-- NEG (R251). -/
def execNeg (p : Prefixes) (w : Width) (rm : RM) (s : State) : Host.Outcome State Fault Refusal :=
  s.retire (Instr.neg p w rm).length (s.unary p w rm negated)

/-! ## Multiplication -/

/-- Whether an exact product lies outside the signed range of `n` bits: CF and OF of IMUL (R254 to R257). -/
def productOverflows (n : Nat) (x : Int) : Bool := outOfRange n x

/-- MUL's effect: the exact unsigned product in the register pair (R252). -/
def State.multiply (s : State) (p : Prefixes) (w : Width) (rm : RM) : Except Trap State := do
  let (b, s1) ← s.readRM p rm w
  let product := (s.reg .eax w).toNat * b.toNat
  let hi := BitVec.ofNat w.bits (product / 2 ^ w.bits)
  .ok ((s1.setPair w hi (BitVec.ofNat w.bits product)).writeStatus (mulFlags (decide (hi ≠ 0))))

/-- One-operand IMUL's effect: the exact signed product in the register pair (R253). -/
def State.multiplySigned (s : State) (p : Prefixes) (w : Width) (rm : RM) : Except Trap State := do
  let (b, s1) ← s.readRM p rm w
  let product := (s.reg .eax w).toInt * b.toInt
  let lo := BitVec.ofInt w.bits product
  .ok ((s1.setPair w (BitVec.ofInt w.bits (product / 2 ^ w.bits)) lo).writeStatus
    (mulFlags (decide (product ≠ lo.toInt))))

/-- The two- and three-operand IMUL: the signed product truncated into a register (R254 to R256). -/
def State.multiplyInto (s : State) (w : Width) (r : Reg) (a b : BitVec w.bits) : State :=
  let product := a.toInt * b.toInt
  (s.setReg r w (BitVec.ofInt w.bits product)).writeStatus (mulFlags (productOverflows w.bits product))

/-- MUL (R252). -/
def execMul (p : Prefixes) (w : Width) (rm : RM) (s : State) : Host.Outcome State Fault Refusal :=
  s.retire (Instr.mul p w rm).length (s.multiply p w rm)

/-- IMUL, one operand (R253). -/
def execImulAcc (p : Prefixes) (w : Width) (rm : RM) (s : State) : Host.Outcome State Fault Refusal :=
  s.retire (Instr.imulAcc p w rm).length (s.multiplySigned p w rm)

/-- IMUL r,r/m (R254). -/
def execImulRRm (p : Prefixes) (r : Reg) (rm : RM) (s : State) : Host.Outcome State Fault Refusal :=
  s.retire (Instr.imulRRm p r rm).length (do
    let (b, s1) ← s.readRM p rm p.opSize
    .ok (s1.multiplyInto p.opSize r (s.reg r p.opSize) b))

/-- IMUL r,r/m,imm8 (R255). -/
def execImulRRmImm8 (p : Prefixes) (r : Reg) (rm : RM) (imm : Byte) (s : State) : Host.Outcome State Fault Refusal :=
  s.retire (Instr.imulRRmImm8 p r rm imm).length (do
    let (b, s1) ← s.readRM p rm p.opSize
    .ok (s1.multiplyInto p.opSize r b (imm.signExtend p.opSize.bits)))

/-- IMUL r,r/m,imm16/imm32 (R256). -/
def execImulRRmImm (p : Prefixes) (w : Width) (r : Reg) (rm : RM) (imm : BitVec w.bits) (s : State) : Host.Outcome State Fault Refusal :=
  s.retire (Instr.imulRRmImm p w r rm imm).length (do
    let (b, s1) ← s.readRM p rm w
    .ok (s1.multiplyInto w r b imm))

/-! ## Division -/

/-- DIV's effect: quotient and remainder, or Interrupt 0 (R258, R260, R404). -/
def State.divide (s : State) (p : Prefixes) (w : Width) (rm : RM) : Except Trap State := do
  let (b, s1) ← s.readRM p rm w
  let n := (s.pair w).toNat
  let d := b.toNat
  if d = 0 then .error .divideError
  else if n / d > 2 ^ w.bits - 1 then .error .divideError
  else .ok ((s1.setPair w (BitVec.ofNat w.bits (n % d)) (BitVec.ofNat w.bits (n / d))).writeStatus undefFlags)

/-- IDIV's effect: the quotient truncated toward 0 and a remainder with the sign of the dividend, or
Interrupt 0 (R259, R260, R404). -/
def State.divideSigned (s : State) (p : Prefixes) (w : Width) (rm : RM) : Except Trap State := do
  let (b, s1) ← s.readRM p rm w
  let n := (s.pair w).toInt
  let d := b.toInt
  if d = 0 then .error .divideError
  else if outOfRange w.bits (n.tdiv d) then .error .divideError
  else .ok ((s1.setPair w (BitVec.ofInt w.bits (n.tmod d)) (BitVec.ofInt w.bits (n.tdiv d))).writeStatus
    undefFlags)

/-- DIV (R258). -/
def execDiv (p : Prefixes) (w : Width) (rm : RM) (s : State) : Host.Outcome State Fault Refusal :=
  s.retire (Instr.div p w rm).length (s.divide p w rm)

/-- IDIV (R259). -/
def execIdiv (p : Prefixes) (w : Width) (rm : RM) (s : State) : Host.Outcome State Fault Refusal :=
  s.retire (Instr.idiv p w rm).length (s.divideSigned p w rm)

end Sys2Proof.Machine
end

