-- ==== Sys2Proof/Machine/ControlTransfer.lean ====
section
/-!
DEFINITION. Control transfer (`44_control_transfer.md`): Jcc, JMP, CALL, RET and IRET.
-/

namespace Sys2Proof

/-- A relative displacement, sign-extended to 32 bits (R321). -/
def Rel.value : Rel → Dword
  | .rel8 v => v.signExtend 32
  | .rel16 v => v.signExtend 32
  | .rel32 v => v

end Sys2Proof

namespace Sys2Proof.Machine

/-- The target of a relative transfer: `(next_ip + sext_32(rel)) AND 0000FFFFH` (R321). -/
def State.target (s : State) (len : Nat) (t : Rel) : Dword := (s.nextIp len + t.value) &&& 0xFFFF

/-- A conditional jump: to the target when the condition holds, else on (R322, R323). -/
def State.branch (s : State) (c : Cond) (len : Nat) (t : Rel) : Host.Outcome State Fault Refusal :=
  .next (if c.holds s.flags then s.jump (s.target len t) else s.setEip (s.nextIp len))

/-- `CS <- sel; EIP <- zext_32(off)` (R327). -/
def State.jumpFar (s : State) (sel off : Word) : State := (s.setSreg .cs sel).jump (off.setWidth 32)

/-- `Push_16(next_ip[15:0])` of a near call, then the jump (R329, R330). -/
def State.callNear (s : State) (len : Nat) (dest : Dword) : Except Trap State := do
  let s1 ← s.push .word ((s.nextIp len).extractLsb' 0 16)
  .ok (s1.jump dest)

/-- The two pushes of a far call, both checked for room before the first is made, then the jump (R331,
R332). -/
def State.callFar (s : State) (len : Nat) (sel off : Word) : Except Trap State := do
  s.checkFrame 2
  let s1 ← s.push .word (s.sreg .cs)
  let s2 ← s1.push .word ((s.nextIp len).extractLsb' 0 16)
  .ok (s2.jumpFar sel off)

/-- A near return that releases `n` bytes (R334, R335). -/
def State.returnNear (s : State) (n : Word) : Except Trap State := do
  let (ip, s1) ← s.pop .word
  .ok ((s1.setSp (s1.sp + n)).jump (ip.setWidth 32))

/-- A far return that releases `n` bytes (R333, R337). -/
def State.returnFar (s : State) (n : Word) : Except Trap State := do
  let (ip, s1) ← s.pop .word
  let (cs, s2) ← s1.pop .word
  .ok ((s2.setSp (s2.sp + n)).jumpFar cs ip)

/-- JO (R320, R322, R323). -/
def execJo (p : Prefixes) (t : Rel) (s : State) : Host.Outcome State Fault Refusal :=
  s.branch .o (Instr.jo p t).length t

/-- JNO (R320, R322, R323). -/
def execJno (p : Prefixes) (t : Rel) (s : State) : Host.Outcome State Fault Refusal :=
  s.branch .no (Instr.jno p t).length t

/-- JB (R320, R322, R323). -/
def execJb (p : Prefixes) (t : Rel) (s : State) : Host.Outcome State Fault Refusal :=
  s.branch .b (Instr.jb p t).length t

/-- JC, another name of JB (R320, R322, R323). -/
def execJc (p : Prefixes) (t : Rel) (s : State) : Host.Outcome State Fault Refusal :=
  s.branch .b (Instr.jc p t).length t

/-- JNAE, another name of JB (R320, R322, R323). -/
def execJnae (p : Prefixes) (t : Rel) (s : State) : Host.Outcome State Fault Refusal :=
  s.branch .b (Instr.jnae p t).length t

/-- JAE (R320, R322, R323). -/
def execJae (p : Prefixes) (t : Rel) (s : State) : Host.Outcome State Fault Refusal :=
  s.branch .ae (Instr.jae p t).length t

/-- JNB, another name of JAE (R320, R322, R323). -/
def execJnb (p : Prefixes) (t : Rel) (s : State) : Host.Outcome State Fault Refusal :=
  s.branch .ae (Instr.jnb p t).length t

/-- JNC, another name of JAE (R320, R322, R323). -/
def execJnc (p : Prefixes) (t : Rel) (s : State) : Host.Outcome State Fault Refusal :=
  s.branch .ae (Instr.jnc p t).length t

/-- JE (R320, R322, R323). -/
def execJe (p : Prefixes) (t : Rel) (s : State) : Host.Outcome State Fault Refusal :=
  s.branch .e (Instr.je p t).length t

/-- JZ, another name of JE (R320, R322, R323). -/
def execJz (p : Prefixes) (t : Rel) (s : State) : Host.Outcome State Fault Refusal :=
  s.branch .e (Instr.jz p t).length t

/-- JNE (R320, R322, R323). -/
def execJne (p : Prefixes) (t : Rel) (s : State) : Host.Outcome State Fault Refusal :=
  s.branch .ne (Instr.jne p t).length t

/-- JNZ, another name of JNE (R320, R322, R323). -/
def execJnz (p : Prefixes) (t : Rel) (s : State) : Host.Outcome State Fault Refusal :=
  s.branch .ne (Instr.jnz p t).length t

/-- JBE (R320, R322, R323). -/
def execJbe (p : Prefixes) (t : Rel) (s : State) : Host.Outcome State Fault Refusal :=
  s.branch .be (Instr.jbe p t).length t

/-- JNA, another name of JBE (R320, R322, R323). -/
def execJna (p : Prefixes) (t : Rel) (s : State) : Host.Outcome State Fault Refusal :=
  s.branch .be (Instr.jna p t).length t

/-- JA (R320, R322, R323). -/
def execJa (p : Prefixes) (t : Rel) (s : State) : Host.Outcome State Fault Refusal :=
  s.branch .a (Instr.ja p t).length t

/-- JNBE, another name of JA (R320, R322, R323). -/
def execJnbe (p : Prefixes) (t : Rel) (s : State) : Host.Outcome State Fault Refusal :=
  s.branch .a (Instr.jnbe p t).length t

/-- JS (R320, R322, R323). -/
def execJs (p : Prefixes) (t : Rel) (s : State) : Host.Outcome State Fault Refusal :=
  s.branch .s (Instr.js p t).length t

/-- JNS (R320, R322, R323). -/
def execJns (p : Prefixes) (t : Rel) (s : State) : Host.Outcome State Fault Refusal :=
  s.branch .ns (Instr.jns p t).length t

/-- JP (R320, R322, R323). -/
def execJp (p : Prefixes) (t : Rel) (s : State) : Host.Outcome State Fault Refusal :=
  s.branch .p (Instr.jp p t).length t

/-- JPE, another name of JP (R320, R322, R323). -/
def execJpe (p : Prefixes) (t : Rel) (s : State) : Host.Outcome State Fault Refusal :=
  s.branch .p (Instr.jpe p t).length t

/-- JNP (R320, R322, R323). -/
def execJnp (p : Prefixes) (t : Rel) (s : State) : Host.Outcome State Fault Refusal :=
  s.branch .np (Instr.jnp p t).length t

/-- JPO, another name of JNP (R320, R322, R323). -/
def execJpo (p : Prefixes) (t : Rel) (s : State) : Host.Outcome State Fault Refusal :=
  s.branch .np (Instr.jpo p t).length t

/-- JL (R320, R322, R323). -/
def execJl (p : Prefixes) (t : Rel) (s : State) : Host.Outcome State Fault Refusal :=
  s.branch .l (Instr.jl p t).length t

/-- JNGE, another name of JL (R320, R322, R323). -/
def execJnge (p : Prefixes) (t : Rel) (s : State) : Host.Outcome State Fault Refusal :=
  s.branch .l (Instr.jnge p t).length t

/-- JGE (R320, R322, R323). -/
def execJge (p : Prefixes) (t : Rel) (s : State) : Host.Outcome State Fault Refusal :=
  s.branch .ge (Instr.jge p t).length t

/-- JNL, another name of JGE (R320, R322, R323). -/
def execJnl (p : Prefixes) (t : Rel) (s : State) : Host.Outcome State Fault Refusal :=
  s.branch .ge (Instr.jnl p t).length t

/-- JLE (R320, R322, R323). -/
def execJle (p : Prefixes) (t : Rel) (s : State) : Host.Outcome State Fault Refusal :=
  s.branch .le (Instr.jle p t).length t

/-- JNG, another name of JLE (R320, R322, R323). -/
def execJng (p : Prefixes) (t : Rel) (s : State) : Host.Outcome State Fault Refusal :=
  s.branch .le (Instr.jng p t).length t

/-- JG (R320, R322, R323). -/
def execJg (p : Prefixes) (t : Rel) (s : State) : Host.Outcome State Fault Refusal :=
  s.branch .g (Instr.jg p t).length t

/-- JNLE, another name of JG (R320, R322, R323). -/
def execJnle (p : Prefixes) (t : Rel) (s : State) : Host.Outcome State Fault Refusal :=
  s.branch .g (Instr.jnle p t).length t

/-- JMP rel8, rel16, rel32 (R324, R325). -/
def execJmpRel (p : Prefixes) (t : Rel) (s : State) : Host.Outcome State Fault Refusal :=
  s.retireJump (.ok (s.jump (s.target (Instr.jmpRel p t).length t)))

/-- JMP r/m16 (R326). -/
def execJmpRm (p : Prefixes) (rm : RM) (s : State) : Host.Outcome State Fault Refusal :=
  s.retireJump (do
    let (v, s1) ← s.readRM p rm .word
    .ok (s1.jump (v.setWidth 32)))

/-- JMP ptr16:16 (R327). -/
def execJmpPtr (_p : Prefixes) (sel : Word) (off : Word) (s : State) : Host.Outcome State Fault Refusal :=
  s.retireJump (.ok (s.jumpFar sel off))

/-- JMP m16:16 (R328). -/
def execJmpMem (p : Prefixes) (m : Mem) (s : State) : Host.Outcome State Fault Refusal :=
  s.retireJump (do
    let (sel, off, s1) ← s.readFar p m
    .ok (s1.jumpFar sel off))

/-- CALL rel16 (R329). -/
def execCallRel (p : Prefixes) (rel : Word) (s : State) : Host.Outcome State Fault Refusal :=
  s.retireJump (s.callNear (Instr.callRel p rel).length
    (s.target (Instr.callRel p rel).length (.rel16 rel)))

/-- CALL r/m16 (R330): the target is read before the push. -/
def execCallRm (p : Prefixes) (rm : RM) (s : State) : Host.Outcome State Fault Refusal :=
  s.retireJump (do
    let (v, s1) ← s.readRM p rm .word
    s1.callNear (Instr.callRm p rm).length (v.setWidth 32))

/-- CALL ptr16:16 (R331). -/
def execCallPtr (p : Prefixes) (sel : Word) (off : Word) (s : State) : Host.Outcome State Fault Refusal :=
  s.retireJump (s.callFar (Instr.callPtr p sel off).length sel off)

/-- CALL m16:16 (R332): the pointer is read before the pushes. -/
def execCallMem (p : Prefixes) (m : Mem) (s : State) : Host.Outcome State Fault Refusal :=
  s.retireJump (do
    let (sel, off, s1) ← s.readFar p m
    s1.callFar (Instr.callMem p m).length sel off)

/-- RET far (R333). -/
def execRetFar (_p : Prefixes) (s : State) : Host.Outcome State Fault Refusal :=
  s.retireJump (s.returnFar 0)

/-- RET imm16 far (R337). -/
def execRetFarImm (_p : Prefixes) (n : Word) (s : State) : Host.Outcome State Fault Refusal :=
  s.retireJump (s.returnFar n)

/-- RET near (R334). -/
def execRetNear (_p : Prefixes) (s : State) : Host.Outcome State Fault Refusal :=
  s.retireJump (s.returnNear 0)

/-- RET imm16 near (R335). -/
def execRetNearImm (_p : Prefixes) (n : Word) (s : State) : Host.Outcome State Fault Refusal :=
  s.retireJump (s.returnNear n)

/-- IRET (R336, R416). -/
def execIret (_p : Prefixes) (s : State) : Host.Outcome State Fault Refusal :=
  s.retireJump (s.returnFromInterrupt)

end Sys2Proof.Machine
end

