-- ==== Sys2Proof/Machine/DataMovement.lean ====
section
/-!
DEFINITION. Data movement (`40_data_movement.md`): MOV, XCHG, PUSH, POP, MOVSX, MOVZX, CWD and CDQ.
-/

namespace Sys2Proof.Machine

/-- MOV r/m,r (R200). -/
def execMovRmR (p : Prefixes) (w : Width) (rm : RM) (r : Reg) (s : State) : Host.Outcome State Fault Refusal :=
  s.retire (Instr.movRmR p w rm r).length (s.writeRM s p rm w (s.reg r w))

/-- MOV r,r/m (R201). -/
def execMovRRm (p : Prefixes) (w : Width) (r : Reg) (rm : RM) (s : State) : Host.Outcome State Fault Refusal :=
  s.retire (Instr.movRRm p w r rm).length (do
    let (v, s1) ← s.readRM p rm w
    .ok (s1.setReg r w v))

/-- MOV r/m16,Sreg (R202). -/
def execMovRmSreg (p : Prefixes) (rm : RM) (sr : SReg) (s : State) : Host.Outcome State Fault Refusal :=
  s.retire (Instr.movRmSreg p rm sr).length (s.writeRM s p rm .word (s.sreg sr))

/-- A segment register loaded; loading SS opens the inhibit window (R203, R216, R60). -/
def State.loadSreg (s : State) (sr : SReg) (v : Word) : State :=
  if sr = .ss then (s.setSreg sr v).openInhibit else s.setSreg sr v

/-- MOV Sreg,r/m16 (R203). CS is no destination: the decoder refuses it (R157). -/
def execMovSregRm (p : Prefixes) (sr : SReg) (rm : RM) (s : State) : Host.Outcome State Fault Refusal :=
  s.retire (Instr.movSregRm p sr rm).length (do
    let (v, s1) ← s.readRM p rm .word
    .ok (s1.loadSreg sr v))

/-- MOV accumulator,moffs (R204). -/
def execMovAccMoffs (p : Prefixes) (w : Width) (off : Moffs) (s : State) : Host.Outcome State Fault Refusal :=
  s.retire (Instr.movAccMoffs p w off).length (do
    let (v, s1) ← s.memRead (moffsSeg p) off.offset w
    .ok (s1.setReg .eax w v))

/-- MOV moffs,accumulator (R205). -/
def execMovMoffsAcc (p : Prefixes) (w : Width) (off : Moffs) (s : State) : Host.Outcome State Fault Refusal :=
  s.retire (Instr.movMoffsAcc p w off).length (s.memWrite (moffsSeg p) off.offset w (s.reg .eax w))

/-- MOV reg,imm (R206). -/
def execMovRImm (p : Prefixes) (w : Width) (r : Reg) (imm : BitVec w.bits) (s : State) : Host.Outcome State Fault Refusal :=
  s.retire (Instr.movRImm p w r imm).length (.ok (s.setReg r w imm))

/-- MOV r/m,imm (R207). -/
def execMovRmImm (p : Prefixes) (w : Width) (rm : RM) (imm : BitVec w.bits) (s : State) : Host.Outcome State Fault Refusal :=
  s.retire (Instr.movRmImm p w rm imm).length (s.writeRM s p rm w imm)

/-- XCHG accumulator,register (R208). -/
def execXchgAcc (p : Prefixes) (r : Reg) (s : State) : Host.Outcome State Fault Refusal :=
  s.retire (Instr.xchgAcc p r).length (.ok ((s.setReg .eax p.opSize (s.reg r p.opSize)).setReg r p.opSize (s.reg .eax p.opSize)))

/-- XCHG r/m,r (R209). -/
def execXchgRmR (p : Prefixes) (w : Width) (rm : RM) (r : Reg) (s : State) : Host.Outcome State Fault Refusal :=
  s.retire (Instr.xchgRmR p w rm r).length (do
    let (v, s1) ← s.readRM p rm w
    let s2 ← s.writeRM s1 p rm w (s.reg r w)
    .ok (s2.setReg r w v))

/-- PUSH m, and its register form (R210, R158). -/
def execPushRm (p : Prefixes) (rm : RM) (s : State) : Host.Outcome State Fault Refusal :=
  s.retire (Instr.pushRm p rm).length (do
    let (v, s1) ← s.readRM p rm p.opSize
    s1.push p.opSize v)

/-- PUSH r (R211): the value is the one before SP changes. -/
def execPushR (p : Prefixes) (r : Reg) (s : State) : Host.Outcome State Fault Refusal :=
  s.retire (Instr.pushR p r).length (s.push p.opSize (s.reg r p.opSize))

/-- PUSH imm (R212). -/
def execPushImm (p : Prefixes) (w : Width) (imm : BitVec w.bits) (s : State) : Host.Outcome State Fault Refusal :=
  s.retire (Instr.pushImm p w imm).length (s.push w imm)

/-- The push of a segment register; the upper half of a 32-bit push is a free value (R213, U3). -/
def State.pushSeg (s : State) (w : Width) (v : Word) : Except Trap State :=
  match w with
  | .dword => (s.drew 1).push .dword (Config.undefinedWord s.draws ++ v)
  | .byte | .word => s.push .word v

/-- PUSH Sreg (R213). -/
def execPushSreg (p : Prefixes) (sr : SReg) (s : State) : Host.Outcome State Fault Refusal :=
  s.retire (Instr.pushSreg p sr).length (s.pushSeg p.opSize (s.sreg sr))

/-- POP m, and its register form (R214, R158). An address formed with ESP is refused (U9). -/
def execPopRm (p : Prefixes) (rm : RM) (s : State) : Host.Outcome State Fault Refusal :=
  s.retire (Instr.popRm p rm).length (if rm.espBase then .error (.refuse .popMemEspBase)
    else do
      let (v, s1) ← s.pop p.opSize
      s.writeRM s1 p rm p.opSize v)

/-- POP r (R215): SP is incremented, then the register written. -/
def execPopR (p : Prefixes) (r : Reg) (s : State) : Host.Outcome State Fault Refusal :=
  s.retire (Instr.popR p r).length (do
    let (v, s1) ← s.pop p.opSize
    .ok (s1.setReg r p.opSize v))

/-- POP Sreg (R216). -/
def execPopSreg (p : Prefixes) (sr : SReg) (s : State) : Host.Outcome State Fault Refusal :=
  s.retire (Instr.popSreg p sr).length (do
    let (v, s1) ← s.pop p.opSize
    .ok (s1.loadSreg sr (v.setWidth 16)))

/-- MOVSX r,r/m8 (R217). -/
def execMovsx8 (p : Prefixes) (r : Reg) (rm : RM) (s : State) : Host.Outcome State Fault Refusal :=
  s.retire (Instr.movsx8 p r rm).length (do
    let (v, s1) ← s.readRM p rm .byte
    .ok (s1.setReg r p.opSize (v.signExtend p.opSize.bits)))

/-- MOVSX r32,r/m16 (R217). -/
def execMovsx16 (p : Prefixes) (r : Reg) (rm : RM) (s : State) : Host.Outcome State Fault Refusal :=
  s.retire (Instr.movsx16 p r rm).length (do
    let (v, s1) ← s.readRM p rm .word
    .ok (s1.setReg r .dword (v.signExtend 32)))

/-- MOVZX r,r/m8 (R218). -/
def execMovzx8 (p : Prefixes) (r : Reg) (rm : RM) (s : State) : Host.Outcome State Fault Refusal :=
  s.retire (Instr.movzx8 p r rm).length (do
    let (v, s1) ← s.readRM p rm .byte
    .ok (s1.setReg r p.opSize (v.setWidth p.opSize.bits)))

/-- MOVZX r32,r/m16 (R218). -/
def execMovzx16 (p : Prefixes) (r : Reg) (rm : RM) (s : State) : Host.Outcome State Fault Refusal :=
  s.retire (Instr.movzx16 p r rm).length (do
    let (v, s1) ← s.readRM p rm .word
    .ok (s1.setReg r .dword (v.setWidth 32)))

/-- CWD (R219). -/
def execCwd (p : Prefixes) (s : State) : Host.Outcome State Fault Refusal :=
  s.retire (Instr.cwd p).length (.ok (s.setReg .edx .word (if (s.reg .eax .word).msb then 0xFFFF else 0)))

/-- CDQ (R220). -/
def execCdq (p : Prefixes) (s : State) : Host.Outcome State Fault Refusal :=
  s.retire (Instr.cdq p).length (.ok (s.setReg .edx .dword (if (s.reg .eax .dword).msb then 0xFFFFFFFF else 0)))

end Sys2Proof.Machine
end

