-- ==== Sys2Proof/Machine/FlagIo.lean ====
section
/-!
DEFINITION. Flag control, I/O and the rest (`45_flag_io_segment_misc.md`): STC, CLC, CMC, CLI, STI, IN,
OUT, LEA and NOP.
-/

namespace Sys2Proof.Machine

/-- STC (R360). -/
def execStc (p : Prefixes) (s : State) : Host.Outcome State Fault Refusal :=
  s.retire (Instr.stc p).length (.ok (s.writeStatus (carryOnly true)))

/-- CLC (R361). -/
def execClc (p : Prefixes) (s : State) : Host.Outcome State Fault Refusal :=
  s.retire (Instr.clc p).length (.ok (s.writeStatus (carryOnly false)))

/-- CMC (R362). -/
def execCmc (p : Prefixes) (s : State) : Host.Outcome State Fault Refusal :=
  s.retire (Instr.cmc p).length (.ok (s.writeStatus (carryOnly (!s.flags.cf))))

/-- CLI (R363). -/
def execCli (p : Prefixes) (s : State) : Host.Outcome State Fault Refusal :=
  s.retire (Instr.cli p).length (.ok (s.setIf false))

/-- STI's effect: IF set, and the window opened when IF was 0 (R364). -/
def State.enableInterrupts (s : State) : State :=
  if s.flags.ief then s.setIf true else { s.setIf true with inhibitMaskable := true }

/-- STI (R364). -/
def execSti (p : Prefixes) (s : State) : Host.Outcome State Fault Refusal :=
  s.retire (Instr.sti p).length (.ok s.enableInterrupts)

/-- An IN from a port to the accumulator (R365, R366). -/
def State.inFrom (s : State) (w : Width) (port : Word) : Except Trap State := do
  let (v, s1) ← s.ioRead port w
  .ok (s1.setReg .eax w v)

/-- IN AL/AX/EAX,imm8 (R365). -/
def execInImm (p : Prefixes) (w : Width) (port : Byte) (s : State) : Host.Outcome State Fault Refusal :=
  s.retire (Instr.inImm p w port).length (s.inFrom w (port.setWidth 16))

/-- IN AL/AX/EAX,DX (R366). -/
def execInDx (p : Prefixes) (w : Width) (s : State) : Host.Outcome State Fault Refusal :=
  s.retire (Instr.inDx p w).length (s.inFrom w (s.reg .edx .word))

/-- OUT imm8,AL/AX/EAX (R367). -/
def execOutImm (p : Prefixes) (w : Width) (port : Byte) (s : State) : Host.Outcome State Fault Refusal :=
  s.retire (Instr.outImm p w port).length (s.ioWrite (port.setWidth 16) w (s.reg .eax w))

/-- OUT DX,AL/AX/EAX (R368). -/
def execOutDx (p : Prefixes) (w : Width) (s : State) : Host.Outcome State Fault Refusal :=
  s.retire (Instr.outDx p w).length (s.ioWrite (s.reg .edx .word) w (s.reg .eax w))

/-- LEA's effect: the effective address, truncated or zero-extended to the operand size; a register
operand is Interrupt 6 (R370, R405). -/
def State.loadAddress (s : State) (w : Width) (r : Reg) (rm : RM) : Except Trap State :=
  match rm with
  | .reg _ => .error (.exc 6)
  | .mem m => .ok (s.setReg r w ((s.addr m).setWidth w.bits))

/-- LEA (R370). -/
def execLea (p : Prefixes) (r : Reg) (rm : RM) (s : State) : Host.Outcome State Fault Refusal :=
  s.retire (Instr.lea p r rm).length (s.loadAddress p.opSize r rm)

/-- NOP (R371): nothing changes but EIP. -/
def execNop (p : Prefixes) (s : State) : Host.Outcome State Fault Refusal :=
  s.retire (Instr.nop p).length (.ok s)

end Sys2Proof.Machine
end

