-- ==== Sys2Proof/Machine/Logical.lean ====
section
/-!
DEFINITION. Logical instructions and bit test (`42_logical.md`): NOT, AND, OR, XOR, TEST and BT.
-/

namespace Sys2Proof.Machine

/-- A Boolean operation with `LogicFlags` (R54). -/
def logicWith (g : (n : Nat) → BitVec n → BitVec n → BitVec n) (n : Nat) (a b : BitVec n) :
    BitVec n × StatusWrite :=
  (g n a b, logicFlags (g n a b))

/-- NOT (R280). -/
def execNot (p : Prefixes) (w : Width) (rm : RM) (s : State) : Host.Outcome State Fault Refusal :=
  s.retire (Instr.not p w rm).length (s.unary p w rm fun a => (~~~a, keepFlags))

/-- AND (R281). -/
def execAnd (p : Prefixes) (f : AluForm) (s : State) : Host.Outcome State Fault Refusal :=
  s.retire (Instr.and p f).length (s.binary p f (logicWith fun _ a b => a &&& b))

/-- OR (R282). -/
def execOr (p : Prefixes) (f : AluForm) (s : State) : Host.Outcome State Fault Refusal :=
  s.retire (Instr.or p f).length (s.binary p f (logicWith fun _ a b => a ||| b))

/-- XOR (R283). -/
def execXor (p : Prefixes) (f : AluForm) (s : State) : Host.Outcome State Fault Refusal :=
  s.retire (Instr.xor p f).length (s.binary p f (logicWith fun _ a b => a ^^^ b))

/-- TEST (R284): the flags of AND, no operand written. -/
def execTest (p : Prefixes) (f : TestForm) (s : State) : Host.Outcome State Fault Refusal :=
  s.retire (Instr.test p f).length (do
    let (a, s1) ← s.readRM p f.left f.width
    .ok (s1.writeStatus (logicFlags (a &&& s.testSrc f))))

/-- The word or doubleword of a bit string in memory that holds the bit at signed offset `o` from the
operand: its address is exact, and outside 0 to 0FFFFH it is Interrupt 13 (R285, U15). -/
def State.bitString (s : State) (p : Prefixes) (m : Mem) (w : Width) (o : Int) :
    Except Trap (BitVec w.bits × State) :=
  let a : Int := (s.addr m).toNat + w.bytes * (o.fdiv w.bits)
  if a < 0 then .error (.exc 13) else s.memRead (m.seg p) a.toNat w

/-- The bit that BT r/m,r selects, and the state after the read of all the bytes that hold it (R285, R89). -/
def State.bitAt (s : State) (p : Prefixes) (rm : RM) (w : Width) (off : BitVec w.bits) :
    Except Trap (Bool × State) :=
  match rm with
  | .reg r => .ok ((s.reg r w).getLsbD (off.toNat % w.bits), s)
  | .mem m => do
    let (v, s1) ← s.bitString p m w off.toInt
    .ok (v.getLsbD (off.toInt.fmod w.bits).toNat, s1)

/-- BT r/m,r (R285). -/
def execBtRmR (p : Prefixes) (rm : RM) (r : Reg) (s : State) : Host.Outcome State Fault Refusal :=
  s.retire (Instr.btRmR p rm r).length (do
    let (b, s1) ← s.bitAt p rm p.opSize (s.reg r p.opSize)
    .ok (s1.writeStatus (btFlags b)))

/-- BT r/m,imm8 (R286). -/
def execBtRmImm (p : Prefixes) (rm : RM) (imm : Byte) (s : State) : Host.Outcome State Fault Refusal :=
  s.retire (Instr.btRmImm p rm imm).length (do
    let (v, s1) ← s.readRM p rm p.opSize
    .ok (s1.writeStatus (btFlags (v.getLsbD (imm.toNat % p.opSize.bits)))))

end Sys2Proof.Machine
end

