-- ==== Sys2Proof/Machine/ShiftRotate.lean ====
section
/-!
DEFINITION. Shifts and rotates (`43_shift_rotate.md`): SAL = SHL, SHR, SAR, ROL, ROR, RCL and RCR. Each is
its one-bit step made COUNT times.
-/

namespace Sys2Proof.Machine

/-- CF and the operand, which the one-bit steps change. -/
structure CarryAnd (n : Nat) where
  cf : Bool
  x : BitVec n
  deriving DecidableEq, Repr

/-- A one-bit step made `k` times. -/
def repeatStep {n : Nat} (step : CarryAnd n → CarryAnd n) : Nat → CarryAnd n → CarryAnd n
  | 0, c => c
  | k + 1, c => repeatStep step k (step c)

/-- A bit as the low-order bit of `n`. -/
def lowBit {n : Nat} (b : Bool) : BitVec n := (BitVec.ofBool b).setWidth n

/-- A bit as the high-order bit of `n`. -/
def highBit {n : Nat} (b : Bool) : BitVec n := (lowBit b) <<< (n - 1)

/-- One step of SAL (R301). -/
def salStep {n : Nat} (c : CarryAnd n) : CarryAnd n := ⟨c.x.msb, c.x <<< 1⟩

/-- One step of SHR (R302). -/
def shrStep {n : Nat} (c : CarryAnd n) : CarryAnd n := ⟨c.x.getLsbD 0, c.x >>> 1⟩

/-- One step of SAR (R303). -/
def sarStep {n : Nat} (c : CarryAnd n) : CarryAnd n := ⟨c.x.getLsbD 0, c.x.sshiftRight 1⟩

/-- One step of ROL (R305). -/
def rolStep {n : Nat} (c : CarryAnd n) : CarryAnd n := ⟨c.x.msb, (c.x <<< 1) ||| lowBit c.x.msb⟩

/-- One step of ROR (R306). -/
def rorStep {n : Nat} (c : CarryAnd n) : CarryAnd n :=
  ⟨c.x.getLsbD 0, (c.x >>> 1) ||| highBit (c.x.getLsbD 0)⟩

/-- One step of RCL (R307). -/
def rclStep {n : Nat} (c : CarryAnd n) : CarryAnd n := ⟨c.x.msb, (c.x <<< 1) ||| lowBit c.cf⟩

/-- One step of RCR (R308). -/
def rcrStep {n : Nat} (c : CarryAnd n) : CarryAnd n :=
  ⟨c.x.getLsbD 0, (c.x >>> 1) ||| highBit c.cf⟩

/-- A shift or rotate: the operand is read, and written back unless COUNT is 0 (R301 to R308). `g` gives
the result and the flags from COUNT, CF and the operand. -/
def State.shiftOp (s : State) (p : Prefixes) (w : Width) (rm : RM) (n : Count)
    (g : Nat → CarryAnd w.bits → BitVec w.bits × StatusWrite) : Except Trap State := do
  let (x, s1) ← s.readRM p rm w
  let k := s.count n
  let (r, u) := g k ⟨s.flags.cf, x⟩
  if k = 0 then .ok (s1.writeStatus u)
  else s.writeRM (s1.writeStatus u) p rm w r

/-- SAL = SHL by `k`: result and flags (R301, R304). -/
def salBy {n : Nat} (k : Nat) (c : CarryAnd n) : BitVec n × StatusWrite :=
  let c' := repeatStep salStep k c
  (c'.x, shiftFlags k c'.cf (c'.x.msb ^^ c'.cf) c'.x)

/-- SHR by `k`: result and flags (R302, R304). -/
def shrBy {n : Nat} (k : Nat) (c : CarryAnd n) : BitVec n × StatusWrite :=
  let c' := repeatStep shrStep k c
  (c'.x, shiftFlags k c'.cf c.x.msb c'.x)

/-- SAR by `k`: result and flags (R303, R304). -/
def sarBy {n : Nat} (k : Nat) (c : CarryAnd n) : BitVec n × StatusWrite :=
  let c' := repeatStep sarStep k c
  (c'.x, shiftFlags k c'.cf false c'.x)

/-- ROL by `k`: result and flags; CF is the low bit of the result (R305, R309). -/
def rolBy {n : Nat} (k : Nat) (c : CarryAnd n) : BitVec n × StatusWrite :=
  let c' := repeatStep rolStep k c
  (c'.x, rotateFlags k (c'.x.getLsbD 0) (c'.x.msb ^^ c'.x.getLsbD 0))

/-- ROR by `k`: result and flags; CF is the high bit of the result (R306, R309). -/
def rorBy {n : Nat} (k : Nat) (c : CarryAnd n) : BitVec n × StatusWrite :=
  let c' := repeatStep rorStep k c
  (c'.x, rotateFlags k c'.x.msb (c'.x.msb ^^ c'.x.getLsbD (n - 2)))

/-- RCL by `k`: result and flags (R307, R309). -/
def rclBy {n : Nat} (k : Nat) (c : CarryAnd n) : BitVec n × StatusWrite :=
  let c' := repeatStep rclStep k c
  (c'.x, rotateFlags k c'.cf (c'.x.msb ^^ c'.cf))

/-- RCR by `k`: result and flags (R308, R309). -/
def rcrBy {n : Nat} (k : Nat) (c : CarryAnd n) : BitVec n × StatusWrite :=
  let c' := repeatStep rcrStep k c
  (c'.x, rotateFlags k c'.cf (c'.x.msb ^^ c'.x.getLsbD (n - 2)))

/-- SAL (R301). -/
def execSal (p : Prefixes) (w : Width) (rm : RM) (n : Count) (s : State) : Host.Outcome State Fault Refusal :=
  s.retire (Instr.sal p w rm n).length (s.shiftOp p w rm n salBy)

/-- SHL, another name of SAL (R301). -/
def execShl (p : Prefixes) (w : Width) (rm : RM) (n : Count) (s : State) : Host.Outcome State Fault Refusal :=
  s.retire (Instr.shl p w rm n).length (s.shiftOp p w rm n salBy)

/-- SHR (R302). -/
def execShr (p : Prefixes) (w : Width) (rm : RM) (n : Count) (s : State) : Host.Outcome State Fault Refusal :=
  s.retire (Instr.shr p w rm n).length (s.shiftOp p w rm n shrBy)

/-- SAR (R303). -/
def execSar (p : Prefixes) (w : Width) (rm : RM) (n : Count) (s : State) : Host.Outcome State Fault Refusal :=
  s.retire (Instr.sar p w rm n).length (s.shiftOp p w rm n sarBy)

/-- ROL (R305). -/
def execRol (p : Prefixes) (w : Width) (rm : RM) (n : Count) (s : State) : Host.Outcome State Fault Refusal :=
  s.retire (Instr.rol p w rm n).length (s.shiftOp p w rm n rolBy)

/-- ROR (R306). -/
def execRor (p : Prefixes) (w : Width) (rm : RM) (n : Count) (s : State) : Host.Outcome State Fault Refusal :=
  s.retire (Instr.ror p w rm n).length (s.shiftOp p w rm n rorBy)

/-- RCL (R307). -/
def execRcl (p : Prefixes) (w : Width) (rm : RM) (n : Count) (s : State) : Host.Outcome State Fault Refusal :=
  s.retire (Instr.rcl p w rm n).length (s.shiftOp p w rm n rclBy)

/-- RCR (R308). -/
def execRcr (p : Prefixes) (w : Width) (rm : RM) (n : Count) (s : State) : Host.Outcome State Fault Refusal :=
  s.retire (Instr.rcr p w rm n).length (s.shiftOp p w rm n rcrBy)

end Sys2Proof.Machine
end

