-- ==== Sys2Proof/Machine/Dispatch.lean ====
section
/-! DEFINITION. The dispatch of every instruction to its meaning. -/

namespace Sys2Proof.Machine

def exec (i : Instr) (s : State) : Host.Outcome State Fault Refusal :=
  match i with
  | .add p f => Sys2Proof.Machine.execAdd p f s
  | .or p f => Sys2Proof.Machine.execOr p f s
  | .adc p f => Sys2Proof.Machine.execAdc p f s
  | .sbb p f => Sys2Proof.Machine.execSbb p f s
  | .and p f => Sys2Proof.Machine.execAnd p f s
  | .sub p f => Sys2Proof.Machine.execSub p f s
  | .xor p f => Sys2Proof.Machine.execXor p f s
  | .cmp p f => Sys2Proof.Machine.execCmp p f s
  | .test p f => Sys2Proof.Machine.execTest p f s
  | .not p w rm => Sys2Proof.Machine.execNot p w rm s
  | .neg p w rm => Sys2Proof.Machine.execNeg p w rm s
  | .mul p w rm => Sys2Proof.Machine.execMul p w rm s
  | .imulAcc p w rm => Sys2Proof.Machine.execImulAcc p w rm s
  | .div p w rm => Sys2Proof.Machine.execDiv p w rm s
  | .idiv p w rm => Sys2Proof.Machine.execIdiv p w rm s
  | .imulRRm p r rm => Sys2Proof.Machine.execImulRRm p r rm s
  | .imulRRmImm8 p r rm imm => Sys2Proof.Machine.execImulRRmImm8 p r rm imm s
  | .imulRRmImm p w r rm imm => Sys2Proof.Machine.execImulRRmImm p w r rm imm s
  | .incRm p w rm => Sys2Proof.Machine.execIncRm p w rm s
  | .incR p r => Sys2Proof.Machine.execIncR p r s
  | .decRm p w rm => Sys2Proof.Machine.execDecRm p w rm s
  | .decR p r => Sys2Proof.Machine.execDecR p r s
  | .btRmR p rm r => Sys2Proof.Machine.execBtRmR p rm r s
  | .btRmImm p rm imm => Sys2Proof.Machine.execBtRmImm p rm imm s
  | .rol p w rm n => Sys2Proof.Machine.execRol p w rm n s
  | .ror p w rm n => Sys2Proof.Machine.execRor p w rm n s
  | .rcl p w rm n => Sys2Proof.Machine.execRcl p w rm n s
  | .rcr p w rm n => Sys2Proof.Machine.execRcr p w rm n s
  | .sal p w rm n => Sys2Proof.Machine.execSal p w rm n s
  | .shl p w rm n => Sys2Proof.Machine.execShl p w rm n s
  | .shr p w rm n => Sys2Proof.Machine.execShr p w rm n s
  | .sar p w rm n => Sys2Proof.Machine.execSar p w rm n s
  | .movRmR p w rm r => Sys2Proof.Machine.execMovRmR p w rm r s
  | .movRRm p w r rm => Sys2Proof.Machine.execMovRRm p w r rm s
  | .movRmSreg p rm sr => Sys2Proof.Machine.execMovRmSreg p rm sr s
  | .movSregRm p sr rm => Sys2Proof.Machine.execMovSregRm p sr rm s
  | .movAccMoffs p w off => Sys2Proof.Machine.execMovAccMoffs p w off s
  | .movMoffsAcc p w off => Sys2Proof.Machine.execMovMoffsAcc p w off s
  | .movRImm p w r imm => Sys2Proof.Machine.execMovRImm p w r imm s
  | .movRmImm p w rm imm => Sys2Proof.Machine.execMovRmImm p w rm imm s
  | .xchgAcc p r => Sys2Proof.Machine.execXchgAcc p r s
  | .xchgRmR p w rm r => Sys2Proof.Machine.execXchgRmR p w rm r s
  | .pushRm p rm => Sys2Proof.Machine.execPushRm p rm s
  | .pushR p r => Sys2Proof.Machine.execPushR p r s
  | .pushImm p w imm => Sys2Proof.Machine.execPushImm p w imm s
  | .pushSreg p sr => Sys2Proof.Machine.execPushSreg p sr s
  | .popRm p rm => Sys2Proof.Machine.execPopRm p rm s
  | .popR p r => Sys2Proof.Machine.execPopR p r s
  | .popSreg p sr => Sys2Proof.Machine.execPopSreg p sr s
  | .movsx8 p r rm => Sys2Proof.Machine.execMovsx8 p r rm s
  | .movsx16 p r rm => Sys2Proof.Machine.execMovsx16 p r rm s
  | .movzx8 p r rm => Sys2Proof.Machine.execMovzx8 p r rm s
  | .movzx16 p r rm => Sys2Proof.Machine.execMovzx16 p r rm s
  | .cwd p => Sys2Proof.Machine.execCwd p s
  | .cdq p => Sys2Proof.Machine.execCdq p s
  | .jo p t => Sys2Proof.Machine.execJo p t s
  | .jno p t => Sys2Proof.Machine.execJno p t s
  | .jb p t => Sys2Proof.Machine.execJb p t s
  | .jc p t => Sys2Proof.Machine.execJc p t s
  | .jnae p t => Sys2Proof.Machine.execJnae p t s
  | .jae p t => Sys2Proof.Machine.execJae p t s
  | .jnb p t => Sys2Proof.Machine.execJnb p t s
  | .jnc p t => Sys2Proof.Machine.execJnc p t s
  | .je p t => Sys2Proof.Machine.execJe p t s
  | .jz p t => Sys2Proof.Machine.execJz p t s
  | .jne p t => Sys2Proof.Machine.execJne p t s
  | .jnz p t => Sys2Proof.Machine.execJnz p t s
  | .jbe p t => Sys2Proof.Machine.execJbe p t s
  | .jna p t => Sys2Proof.Machine.execJna p t s
  | .ja p t => Sys2Proof.Machine.execJa p t s
  | .jnbe p t => Sys2Proof.Machine.execJnbe p t s
  | .js p t => Sys2Proof.Machine.execJs p t s
  | .jns p t => Sys2Proof.Machine.execJns p t s
  | .jp p t => Sys2Proof.Machine.execJp p t s
  | .jpe p t => Sys2Proof.Machine.execJpe p t s
  | .jnp p t => Sys2Proof.Machine.execJnp p t s
  | .jpo p t => Sys2Proof.Machine.execJpo p t s
  | .jl p t => Sys2Proof.Machine.execJl p t s
  | .jnge p t => Sys2Proof.Machine.execJnge p t s
  | .jge p t => Sys2Proof.Machine.execJge p t s
  | .jnl p t => Sys2Proof.Machine.execJnl p t s
  | .jle p t => Sys2Proof.Machine.execJle p t s
  | .jng p t => Sys2Proof.Machine.execJng p t s
  | .jg p t => Sys2Proof.Machine.execJg p t s
  | .jnle p t => Sys2Proof.Machine.execJnle p t s
  | .jmpRel p t => Sys2Proof.Machine.execJmpRel p t s
  | .jmpRm p rm => Sys2Proof.Machine.execJmpRm p rm s
  | .jmpPtr p sel off => Sys2Proof.Machine.execJmpPtr p sel off s
  | .jmpMem p m => Sys2Proof.Machine.execJmpMem p m s
  | .callRel p rel => Sys2Proof.Machine.execCallRel p rel s
  | .callRm p rm => Sys2Proof.Machine.execCallRm p rm s
  | .callPtr p sel off => Sys2Proof.Machine.execCallPtr p sel off s
  | .callMem p m => Sys2Proof.Machine.execCallMem p m s
  | .retFar p => Sys2Proof.Machine.execRetFar p s
  | .retFarImm p n => Sys2Proof.Machine.execRetFarImm p n s
  | .retNear p => Sys2Proof.Machine.execRetNear p s
  | .retNearImm p n => Sys2Proof.Machine.execRetNearImm p n s
  | .iret p => Sys2Proof.Machine.execIret p s
  | .stc p => Sys2Proof.Machine.execStc p s
  | .clc p => Sys2Proof.Machine.execClc p s
  | .cmc p => Sys2Proof.Machine.execCmc p s
  | .cli p => Sys2Proof.Machine.execCli p s
  | .sti p => Sys2Proof.Machine.execSti p s
  | .inImm p w port => Sys2Proof.Machine.execInImm p w port s
  | .inDx p w => Sys2Proof.Machine.execInDx p w s
  | .outImm p w port => Sys2Proof.Machine.execOutImm p w port s
  | .outDx p w => Sys2Proof.Machine.execOutDx p w s
  | .lea p r rm => Sys2Proof.Machine.execLea p r rm s
  | .nop p => Sys2Proof.Machine.execNop p s

end Sys2Proof.Machine
end

