-- ==== Sys2Proof/Machine/Timing.lean ====
section
/-!
DEFINITION. The timing model of Appendix D (R470 to R475): base cost and adders of each instruction. The
Clocks columns of R476 are not used (C37).
-/

namespace Sys2Proof

/-- An explicit immediate operand costs +2 (R471). -/
def immediateCost : Nat := 2

/-- A displacement or moffs field costs +2 (R472). -/
def displacementCost : Nat := 2

/-- The displacement adder of a memory operand (R472). -/
def Mem.cost : Mem → Nat
  | .base16 _ disp => if disp = .none then 0 else displacementCost
  | .abs16 _ => displacementCost
  | .base32 _ disp => if disp = .none then 0 else displacementCost
  | .abs32 _ => displacementCost
  | .sib _ _ _ disp => if disp = .none then 0 else displacementCost
  | .sibAbs _ _ _ => displacementCost

/-- The adders of an r/m operand whose memory access costs `access`: 5 for one access, 7 for a read and a
write of one location (R472, R473). -/
def RM.cost (access : Nat) : RM → Nat
  | .reg _ => 0
  | .mem m => m.cost + access

/-- The adders of a two-operand form whose destination in memory costs `access` (R471 to R473). -/
def AluForm.cost (access : Nat) : AluForm → Nat
  | .accImm _ _ => immediateCost
  | .rmImm _ rm _ => immediateCost + rm.cost access
  | .rmImm8 _ rm _ => immediateCost + rm.cost access
  | .rmReg _ rm _ => rm.cost access
  | .regRm _ _ rm => rm.cost 5

/-- The adders of a form of TEST, which only reads (R471 to R473). -/
def TestForm.cost : TestForm → Nat
  | .accImm _ _ => immediateCost
  | .rmImm _ rm _ => immediateCost + rm.cost 5
  | .rmReg _ rm _ => rm.cost 5

/-- The adder of a count: an immediate byte costs +2 (R471). -/
def Count.cost : Count → Nat
  | .one | .cl => 0
  | .imm _ => immediateCost

/-- The base cost of MUL, IMUL, DIV and IDIV (R470). -/
def Width.multiplyCost : Width → Nat
  | .byte => 19
  | .word => 27
  | .dword => 43

end Sys2Proof

namespace Sys2Proof.Machine

/-- The cost of a conditional jump: 12 taken, 8 not taken (R470, R474). -/
def State.branchCost (s : State) (c : Cond) : Nat := if c.holds s.flags then 12 else 8

/-- The cycles of an instruction that begins in the state `s` (R470 to R475). -/
def State.cost (s : State) : Instr → Nat
  | .add _ f => 8 + f.cost 7
  | .or _ f => 8 + f.cost 7
  | .adc _ f => 8 + f.cost 7
  | .sbb _ f => 8 + f.cost 7
  | .and _ f => 8 + f.cost 7
  | .sub _ f => 8 + f.cost 7
  | .xor _ f => 8 + f.cost 7
  | .cmp _ f => 8 + f.cost 5
  | .test _ f => 8 + f.cost
  | .not _ _ rm => 8 + rm.cost 7
  | .neg _ _ rm => 8 + rm.cost 7
  | .mul _ w rm => w.multiplyCost + rm.cost 5
  | .imulAcc _ w rm => w.multiplyCost + rm.cost 5
  | .div _ w rm => w.multiplyCost + rm.cost 5
  | .idiv _ w rm => w.multiplyCost + rm.cost 5
  | .imulRRm p _ rm => p.opSize.multiplyCost + rm.cost 5
  | .imulRRmImm8 p _ rm _ => p.opSize.multiplyCost + immediateCost + rm.cost 5
  | .imulRRmImm _ w _ rm _ => w.multiplyCost + immediateCost + rm.cost 5
  | .incRm _ _ rm => 8 + rm.cost 7
  | .incR _ _ => 8
  | .decRm _ _ rm => 8 + rm.cost 7
  | .decR _ _ => 8
  | .btRmR _ rm _ => 8 + rm.cost 5
  | .btRmImm _ rm _ => 8 + immediateCost + rm.cost 5
  | .rol _ _ rm n => 8 + n.cost + rm.cost 7
  | .ror _ _ rm n => 8 + n.cost + rm.cost 7
  | .rcl _ _ rm n => 8 + n.cost + rm.cost 7
  | .rcr _ _ rm n => 8 + n.cost + rm.cost 7
  | .sal _ _ rm n => 8 + n.cost + rm.cost 7
  | .shl _ _ rm n => 8 + n.cost + rm.cost 7
  | .shr _ _ rm n => 8 + n.cost + rm.cost 7
  | .sar _ _ rm n => 8 + n.cost + rm.cost 7
  | .movRmR _ _ rm _ => 8 + rm.cost 5
  | .movRRm _ _ _ rm => 8 + rm.cost 5
  | .movRmSreg _ rm _ => 8 + rm.cost 5
  | .movSregRm _ _ rm => 8 + rm.cost 5
  | .movAccMoffs _ _ _ => 8 + displacementCost + 5
  | .movMoffsAcc _ _ _ => 8 + displacementCost + 5
  | .movRImm _ _ _ _ => 8 + immediateCost
  | .movRmImm _ _ rm _ => 8 + immediateCost + rm.cost 5
  | .xchgAcc _ _ => 8
  | .xchgRmR _ _ rm _ => 8 + rm.cost 7
  | .pushRm _ rm => 10 + rm.cost 5
  | .pushR _ _ => 10
  | .pushImm _ _ _ => 10 + immediateCost
  | .pushSreg _ _ => 10
  | .popRm _ rm => 10 + rm.cost 5
  | .popR _ _ => 10
  | .popSreg _ _ => 10
  | .movsx8 _ _ rm => 8 + rm.cost 5
  | .movsx16 _ _ rm => 8 + rm.cost 5
  | .movzx8 _ _ rm => 8 + rm.cost 5
  | .movzx16 _ _ rm => 8 + rm.cost 5
  | .cwd _ => 8
  | .cdq _ => 8
  | .jo _ _ => s.branchCost .o
  | .jno _ _ => s.branchCost .no
  | .jb _ _ => s.branchCost .b
  | .jc _ _ => s.branchCost .b
  | .jnae _ _ => s.branchCost .b
  | .jae _ _ => s.branchCost .ae
  | .jnb _ _ => s.branchCost .ae
  | .jnc _ _ => s.branchCost .ae
  | .je _ _ => s.branchCost .e
  | .jz _ _ => s.branchCost .e
  | .jne _ _ => s.branchCost .ne
  | .jnz _ _ => s.branchCost .ne
  | .jbe _ _ => s.branchCost .be
  | .jna _ _ => s.branchCost .be
  | .ja _ _ => s.branchCost .a
  | .jnbe _ _ => s.branchCost .a
  | .js _ _ => s.branchCost .s
  | .jns _ _ => s.branchCost .ns
  | .jp _ _ => s.branchCost .p
  | .jpe _ _ => s.branchCost .p
  | .jnp _ _ => s.branchCost .np
  | .jpo _ _ => s.branchCost .np
  | .jl _ _ => s.branchCost .l
  | .jnge _ _ => s.branchCost .l
  | .jge _ _ => s.branchCost .ge
  | .jnl _ _ => s.branchCost .ge
  | .jle _ _ => s.branchCost .le
  | .jng _ _ => s.branchCost .le
  | .jg _ _ => s.branchCost .g
  | .jnle _ _ => s.branchCost .g
  | .jmpRel _ _ => 12
  | .jmpRm _ _ => 12
  | .jmpPtr _ _ _ => 12
  | .jmpMem _ _ => 12
  | .callRel _ _ => 17
  | .callRm _ _ => 17
  | .callPtr _ _ _ => 17
  | .callMem _ _ => 17
  | .retFar _ => 17
  | .retFarImm _ _ => 17
  | .retNear _ => 17
  | .retNearImm _ _ => 17
  | .iret _ => 22
  | .stc _ => 8
  | .clc _ => 8
  | .cmc _ => 8
  | .cli _ => 8
  | .sti _ => 8
  | .inImm _ _ _ => 13 + immediateCost
  | .inDx _ _ => 13
  | .outImm _ _ _ => 13 + immediateCost
  | .outDx _ _ => 13
  | .lea _ _ rm => 8 + rm.cost 0
  | .nop _ => 8

end Sys2Proof.Machine
end

