-- ==== Sys2Proof/Machine/Fetch.lean ====
section
/-!
DEFINITION. The instruction boundary and the fetch: which interrupt is recognised (R410 to R415), the bytes
of the next instruction (R41, R42, R113), what RESET does (R450 to R453), and how an instruction begins.
-/

namespace Sys2Proof.Machine

/-- The refusal of bytes that are no instruction of the subset. -/
def refusalOf : DecodeError → Refusal
  | .needMore => .undefinedOpcode
  | .badPrefix => .badPrefix
  | .undefinedOpcode => .undefinedOpcode
  | .badSreg => .badSreg
  | .farIndirectRegister => .farIndirectRegister
  | .opsizeOnMovSreg => .opsizeOnMovSreg
  | .opsize32ControlTransfer => .opsize32ControlTransfer

/-- The linear address of the next instruction (R41). -/
def State.codeAddr (s : State) : Nat := s.linear .cs s.eip.toNat

/-- How many bytes the fetch can see: the longest instruction, but none past offset 0FFFFH (U10). -/
def State.codeRoom (s : State) : Nat := min maxLength (0x10000 - s.eip.toNat)

/-- `n` bytes of code read, the lowest address first, and the state after: memory and devices answer a fetch
as they answer a load (R41, R103). -/
def State.loadCode (s : State) (a : Nat) : Nat → List Byte × State
  | 0 => ([], s)
  | n + 1 =>
    let (b, s1) := s.loadByte a
    let (bs, s2) := s1.loadCode (a + 1) n
    (b :: bs, s2)

/-- The bytes at CS:EIP, as many as the fetch can see. -/
def State.codeBytes (s : State) : List Byte := (s.loadCode s.codeAddr s.codeRoom).1

/-- The state after the first `n` bytes at CS:EIP are fetched; it is `s` but for what a read of a device does.
DESIGN CHOICE (log entries 13 and 32): exactly the bytes of the instruction are read, so that the prefetch of
bytes beyond it reaches no device. -/
def State.fetched (s : State) (n : Nat) : State := (s.loadCode s.codeAddr n).2

/-- `n` bytes of code can be fetched: they are populated, and none was stored to since the last taken control
transfer (R113, U13). Bytes beyond them are neither checked nor read (R463, log entries 13 and 32). -/
def State.checkCode (s : State) (n : Nat) : Except Trap Unit := do
  s.checkPresent s.codeAddr n
  if (List.range n).any fun k => s.stored.contains (s.codeAddr + k) then
    .error (.refuse .selfModifyingCode)
  else .ok ()

/-- The instruction at CS:EIP. One whose bytes run past offset 0FFFFH is Interrupt 13 (U10); bytes that
are no instruction of the subset are refused by name. DESIGN CHOICE (log entry 15): of an instruction that
runs past offset 0FFFFH, its bytes below that cannot be fetched (not populated, stored to) refuse the step
before Interrupt 13 is considered; and where the bytes up to offset 0FFFFH do not settle what the decoder has
to read before it judges them, Interrupt 13 goes before the refusal of U4, U5, U6 or U8: the decoder reads the
ModR/M, SIB and displacement of 8C, 8E and the groups before it judges 66H, the /digit, the Sreg code or the
register operand, and judges 66H at once where the opcode alone settles it, as in E8, EA, 9A, C2 and CA. -/
def State.fetch (s : State) : Except Trap Instr :=
  match decode s.codeBytes with
  | .ok (i, _) => do
    s.checkCode i.length
    .ok i
  | .error .needMore => do
    s.checkCode s.codeRoom
    .error (.exc 13)
  | .error e => .error (.refuse (refusalOf e))

/-- The state in which a recognised external interrupt is taken and its identifier: one NMI event of those
waiting goes before INTR, whose level the host owns (R411 to R415). DESIGN CHOICE (log entry 9): NMI events
that arrive before one is taken are counted, and each is taken at a boundary of its own. -/
def State.recognised (s : State) : Option (State × Byte) :=
  if decide (0 < s.nmi) && !s.inhibit then some ({ s with nmi := s.nmi - 1 }, 2)
  else match s.intr with
    | some n => if s.flags.ief && !s.inhibit && !s.inhibitMaskable then some (s, n) else none
    | none => none

/-- Both inhibit windows closed: they cover one boundary (R413, R415). -/
def State.closeWindows (s : State) : State := { s with inhibit := false, inhibitMaskable := false }

/-- The state in which an instruction runs: past its boundary, its cycles charged (R415, R470). -/
def State.begin (s : State) (i : Instr) : State :=
  { s.closeWindows with cycles := s.cycles + s.cost i }

/-- RESET: the processor returns to its reset state; memory, the devices and the host's other inputs keep
what they have (R450 to R453). -/
def State.afterReset (s : State) : State :=
  { State.reset with
    mem := s.mem, present := s.present, mmio := s.mmio
    intr := s.intr, nmi := s.nmi
    deviceIn := s.deviceIn, deviceTrace := s.deviceTrace
    ioIn := s.ioIn, ioTrace := s.ioTrace, cycles := s.cycles, draws := s.draws }

end Sys2Proof.Machine
end

