-- ==== Sys2Proof/Machine/Step.lean ====
section
/-!
DEFINITION. One step of the machine, and the placing of an instruction where the next step fetches it.
-/

namespace Sys2Proof.Machine

/-- One step (R415): RESET if it is signalled; nothing in shutdown; an external interrupt if one is
recognised at the boundary; else one instruction on the state after its bytes are fetched, or the exception
of its fetch, which has read all the bytes it can see. A boundary with TF = 1 is refused (R422, U14). -/
def step (s : State) : Host.Outcome State Fault Refusal :=
  if s.resetSignal then .next s.afterReset
  else if s.shutdown then .fault .shutdown
  else if s.flags.tf then .refused .tfSet
  else match s.recognised with
    | some (s', n) => s'.interrupt n (s'.eip.extractLsb' 0 16) false
    | none => match s.fetch with
      | .ok i => exec i ((s.fetched i.length).begin i)
      | .error t => (s.fetched s.codeRoom).closeWindows.deliver t

/-- The state with an instruction's bits stored at CS:EIP, the bytes after them 0 up to the longest
instruction, as if loaded before the run (R113: such loading is no store; log entry 22). CS:EIP is taken to lie in memory, not in a device. -/
def State.withFetchWord (s : State) (nbits w : Nat) : State :=
  { s with
    mem := s.mem.setBytes (s.linear .cs s.eip.toNat) (numberBytes maxLength (w % 2 ^ nbits))
    stored := [] }

end Sys2Proof.Machine
end

