-- ==== Sys2Proof/Safety.lean ====
section
/-!
DEFINITION. What claims are about: how a run ends (R480), the invariant of the machine, and what an
instruction leaves unchanged.
-/

namespace Sys2Proof.Machine

/-! ## Runs (R480) -/

/-- How a run ends (R480). -/
inductive RunEnd where
  /-- The processor is in shutdown. -/
  | shutdown (s : State)
  /-- The next instruction is the one at END_CS:END_IP. -/
  | reachedEnd (s : State)
  /-- The step budget is used up. -/
  | outOfBudget (s : State)
  /-- A case the spec refuses: the run is rejected. -/
  | rejected (r : Refusal)
  deriving DecidableEq, Repr

/-- The next instruction is the one at END_CS:END_IP (R480). -/
def State.atEnd (s : State) (endCs endIp : Word) : Bool :=
  decide (s.sreg .cs = endCs) && decide (s.eip = endIp.setWidth 32)

/-- A run under a step budget to END_CS:END_IP (R480). DESIGN CHOICE (log entry 31): when several ends hold
at one boundary, shutdown comes first and END_CS:END_IP next, before a refusal of the step, a deliverable
interrupt, and the end of the budget. -/
def runFrom (endCs endIp : Word) : Nat → State → RunEnd
  | 0, s =>
    if s.shutdown then .shutdown s else if s.atEnd endCs endIp then .reachedEnd s else .outOfBudget s
  | n + 1, s =>
    if s.shutdown then .shutdown s
    else if s.atEnd endCs endIp then .reachedEnd s
    else match step s with
      | .next s' => runFrom endCs endIp n s'
      | .fault .shutdown => .shutdown s
      | .refused r => .rejected r

/-! ## The invariant -/

/-- The memory is in its canonical form, and EIP is at most 10000H: an offset of the segment, or the one
just past it where the fetch is Interrupt 13 (R42, U10). -/
def State.Inv (s : State) : Prop := s.mem.wf = true ∧ s.eip.toNat ≤ 0x10000

/-! ## Operands a program can reach

Every predicate below is about the state before the instruction alone. -/

/-- `n` bytes from an address on are populated memory and no device (D5, R103). -/
def State.plain (s : State) (a n : Nat) : Prop :=
  ∀ k, k < n → inRegions s.present (a + k) = true ∧ inRegions s.mmio (a + k) = false

/-- `n` bytes from an address on are populated and belong to memory-mapped devices (D5, R103). -/
def State.devices (s : State) (a n : Nat) : Prop :=
  ∀ k, k < n → inRegions s.present (a + k) = true ∧ inRegions s.mmio (a + k) = true

/-- The linear address of a memory operand (R82, R131 to R135). -/
def State.operandAddr (s : State) (p : Prefixes) (m : Mem) : Nat := s.linear (m.seg p) (s.addr m).toNat

/-- `n` bytes at an offset of a segment lie within offsets 0 to 0FFFFH and are plain memory (R90). -/
def State.reachesAt (s : State) (sr : SReg) (off n : Nat) : Prop :=
  off + n ≤ 0x10000 ∧ s.plain (s.linear sr off) n

/-- The r/m operand is a register, or reachable memory. -/
def State.reaches (s : State) (p : Prefixes) (rm : RM) (w : Width) : Prop :=
  match rm with
  | .reg _ => True
  | .mem m => s.reachesAt (m.seg p) (s.addr m).toNat w.bytes

/-- The value of the r/m operand (R137). -/
def State.operand (s : State) (p : Prefixes) (rm : RM) (w : Width) : BitVec w.bits :=
  match rm with
  | .reg r => s.reg r w
  | .mem m => s.mem.read (s.operandAddr p m) w

/-- Both operands of a two-operand form can be reached. -/
def State.reachesForm (s : State) (p : Prefixes) (f : AluForm) : Prop :=
  s.reaches p f.dest f.width ∧
    match f with
    | .regRm w _ rm => s.reaches p rm w
    | _ => True

/-- The value of SRC (R242, R243). -/
def State.source (s : State) (p : Prefixes) : (f : AluForm) → BitVec f.width.bits
  | .accImm _ imm => imm
  | .rmImm _ _ imm => imm
  | .rmImm8 w _ imm => imm.signExtend w.bits
  | .rmReg w _ r => s.reg r w
  | .regRm w _ rm => s.operand p rm w

/-- The value of DEST before the instruction (R243). -/
def State.destination (s : State) (p : Prefixes) (f : AluForm) : BitVec f.width.bits :=
  s.operand p f.dest f.width

/-- The stack offset `k` bytes below SP, modulo 2^16 (R96). -/
def State.below (s : State) (k : Nat) : Nat := (s.sp - BitVec.ofNat 16 k).toNat

/-- The stack offset `k` bytes above SP, modulo 2^16 (R97). -/
def State.above (s : State) (k : Nat) : Nat := (s.sp + BitVec.ofNat 16 k).toNat

/-- A push of `n` bytes fits and lands in plain memory, `k` bytes having been pushed before it (R98). -/
def State.canPush (s : State) (k n : Nat) : Prop := s.reachesAt .ss (s.below (k + n)) n

/-- A pop of `n` bytes fits and reads plain memory, `k` bytes having been popped before it (R98). -/
def State.canPop (s : State) (k n : Nat) : Prop := s.reachesAt .ss (s.above k) n

/-- The word on the stack `k` bytes above SP. -/
def State.stackWord (s : State) (k : Nat) : Word := s.mem.read (s.linear .ss (s.above k)) .word

/-! ## What an instruction changes -/

/-- One flag under an entry of R49: kept, given its value, or free. -/
def FlagWrite.allows (u : FlagWrite) (old new : Bool) : Prop :=
  match u with
  | .keep => new = old
  | .put b => new = b
  | .undef => True

/-- The flags other than the six status flags are unchanged. -/
def EFlags.sameSystem (f g : EFlags) : Prop :=
  g.bit1 = f.bit1 ∧ g.bit3 = f.bit3 ∧ g.bit5 = f.bit5 ∧ g.tf = f.tf ∧ g.ief = f.ief ∧
  g.bit10 = f.bit10 ∧ g.bit12 = f.bit12 ∧ g.bit13 = f.bit13 ∧ g.bit14 = f.bit14 ∧
  g.bit15 = f.bit15 ∧ g.upper = f.upper

/-- The flags changed as a row of R49 says, and no other flag. -/
def StatusWrite.allows (u : StatusWrite) (f g : EFlags) : Prop :=
  u.ovf.allows f.ovf g.ovf ∧ u.sf.allows f.sf g.sf ∧ u.zf.allows f.zf g.zf ∧ u.af.allows f.af g.af ∧
  u.pf.allows f.pf g.pf ∧ u.cf.allows f.cf g.cf ∧ f.sameSystem g

/-- The host's inputs, the traces, the memory map, the windows, the shutdown state and the cycle counter
are unchanged. -/
def State.sameControl (s t : State) : Prop :=
  t.present = s.present ∧ t.mmio = s.mmio ∧ t.intr = s.intr ∧ t.nmi = s.nmi ∧
  t.resetSignal = s.resetSignal ∧ t.deviceIn = s.deviceIn ∧ t.deviceTrace = s.deviceTrace ∧ t.ioIn = s.ioIn ∧
  t.ioTrace = s.ioTrace ∧ t.cycles = s.cycles ∧ t.shutdown = s.shutdown ∧ t.inhibit = s.inhibit ∧ t.inhibitMaskable = s.inhibitMaskable

/-- No byte of memory is stored to. -/
def State.sameMemory (s t : State) : Prop := t.mem = s.mem ∧ t.stored = s.stored

/-- The bytes of an operand are stored at an address: it reads back, every byte outside it reads as
before, and the stores are remembered (R85, R113). -/
def State.stores (s t : State) (a : Nat) (w : Width) (v : BitVec w.bits) : Prop :=
  t.mem.read a w = v ∧
  (∀ b, b < a ∨ a + w.bytes ≤ b → t.mem.get b = s.mem.get b) ∧
  (∀ b, b ∈ t.stored ↔ b ∈ s.stored ∨ (a ≤ b ∧ b < a + w.bytes))

/-- A value is written to the r/m operand, and nothing else to a register or to memory. The address is
the one in the state before the instruction (R134). -/
def State.writes (s t : State) (p : Prefixes) (rm : RM) (w : Width) (v : BitVec w.bits) : Prop :=
  match rm with
  | .reg r => t.regs = s.regs.write r w v ∧ s.sameMemory t
  | .mem m => t.regs = s.regs ∧ s.stores t (s.operandAddr p m) w v

/-- The instruction goes on to the next one (R41). -/
def State.goesOn (s t : State) (i : Instr) : Prop := t.eip = s.eip + BitVec.ofNat 32 i.length

/-- The state after a write to the r/m operand, the address being the one in `s`. -/
def State.put (s t : State) (p : Prefixes) (rm : RM) (w : Width) (v : BitVec w.bits) : State :=
  match rm with
  | .reg r => t.setReg r w v
  | .mem m => t.storeBytes (s.operandAddr p m) (leBytes w v)

/-- `i` completes in `s`: it writes `v` to the r/m operand and the flags of `u`, and changes nothing else. -/
def State.completesWith (s : State) (i : Instr) (rm : RM) (w : Width) (v : BitVec w.bits)
    (u : StatusWrite) : Prop :=
  ∃ t, exec i s = .next t ∧ s.writes t i.prefixes rm w v ∧ t.segs = s.segs ∧ u.allows s.flags t.flags ∧
    s.sameControl t ∧ s.goesOn t i

/-- `i` completes in `s` with the registers `g` and the flags of `u`, storing nothing, and changes nothing
else. -/
def State.completesRegs (s : State) (i : Instr) (g : Regs) (u : StatusWrite) : Prop :=
  ∃ t, exec i s = .next t ∧ t.regs = g ∧ s.sameMemory t ∧ t.segs = s.segs ∧ u.allows s.flags t.flags ∧
    s.sameControl t ∧ s.goesOn t i

/-- `i` completes in `s` as a control transfer to an offset of the code segment `cs`, with the registers
`g`, storing nothing; no flag changes. What is fetched from then on was fetched after every store (R113). -/
def State.transfersTo (s : State) (i : Instr) (g : Regs) (cs : Word) (off : Dword) : Prop :=
  ∃ t, exec i s = .next t ∧ t.regs = g ∧ t.segs = { s.segs with cs := cs } ∧ t.eip = off ∧
    t.flags = s.flags ∧ t.mem = s.mem ∧ t.stored = [] ∧ s.sameControl t

/-- SP moved down by `n`, ESP[31:16] and the other registers kept (R95). -/
def State.pushedRegs (s : State) (n : Nat) : Regs :=
  s.regs.write .esp .word (s.sp - BitVec.ofNat 16 n)

/-- SP moved up by `n`, ESP[31:16] and the other registers kept (R95). -/
def State.poppedRegs (s : State) (n : Nat) : Regs :=
  s.regs.write .esp .word (s.sp + BitVec.ofNat 16 n)

/-- `i` completes in `s` as a push of `v` (R96). -/
def State.pushes (s : State) (i : Instr) (w : Width) (v : BitVec w.bits) : Prop :=
  ∃ t, exec i s = .next t ∧ t.regs = s.pushedRegs w.bytes ∧
    s.stores t (s.linear .ss (s.below w.bytes)) w v ∧
    t.segs = s.segs ∧ t.flags = s.flags ∧ s.sameControl t ∧ s.goesOn t i

/-- An exception is taken with the offset of the instruction itself (R407, R41). -/
def State.raises (s : State) (i : Instr) (n : Byte) : Prop :=
  exec i s = s.interrupt n (s.eip.extractLsb' 0 16) false

end Sys2Proof.Machine
end

