-- ==== Sys2Proof/Certificates/Slice0/Obligations.lean ====
section
/-!
DEFINITION. The statements for the provers. The predicates they use are those of `Sys2Proof/Safety.lean`:
the hypotheses are about the state before the instruction and its operands alone; `completesWith`,
`completesRegs`, `pushes` and `transfersTo` say that `exec` answers a next state, what it holds, and that
nothing else changes. A free value is never constrained.
-/

open Sys2Proof Sys2Proof.Machine

/-! ## Encoding -/

/-- Decoding the bytes of a well-formed instruction, whatever follows them, gives that instruction under
its primary mnemonic and leaves what follows (R120 to R159, R154). -/
def Obligations.DecodeEncodeRoundTrip : Prop :=
  ∀ (i : Instr) (rest : List Byte), i.WellFormed → decode (encode i ++ rest) = .ok (i.core, rest)

/-- What the decoder answers is an instruction of the subset under a primary mnemonic; its length is the
number of bytes read, and that is one to fourteen (R120, R147, R41). -/
def Obligations.DecodedIsWellFormed : Prop :=
  ∀ (bs : List Byte) (i : Instr) (rest : List Byte), decode bs = .ok (i, rest) →
    i.WellFormed ∧ i.core = i ∧ bs.length = i.length + rest.length ∧ 1 ≤ i.length ∧ i.length ≤ 14

/-- Words written out from the encoding tables decode to the instructions they stand for: vectors E1, E2,
E5, E9, E12, E21, E25, E28 and E32 of `95_test_vectors.md`. E28, MOV SS,AX as `8E D0`, rests on the opcode
that the addition G1 of R203 supplies (log entry 25). -/
def Obligations.DecodesEncodingVectors : Prop :=
  decode [0x03, 0x00] = .ok (.add ⟨false, false, none⟩ (.regRm .word .eax (.mem (.base16 .bxsi .none))), []) ∧
  decode [0x8B, 0x46, 0xFE] =
    .ok (.movRRm ⟨false, false, none⟩ .word .eax (.mem (.base16 .bp (.d8 0xFE))), []) ∧
  decode [0x67, 0x66, 0x8B, 0x04, 0x98] =
    .ok (.movRRm ⟨true, true, none⟩ .dword .eax (.mem (.sib .eax (some .ebx) .x4 .none)), []) ∧
  decode [0x67, 0x8B, 0x04, 0x6D, 0x10, 0x00, 0x00, 0x00] =
    .ok (.movRRm ⟨false, true, none⟩ .word .eax (.mem (.sibAbs (some .ebp) .x2 0x10)), []) ∧
  decode [0x83, 0xE8, 0xFF] = .ok (.sub ⟨false, false, none⟩ (.rmImm8 .word (.reg .eax) 0xFF), []) ∧
  decode [0x9A, 0x00, 0x00, 0x00, 0x05] = .ok (.callPtr ⟨false, false, none⟩ 0x0500 0x0000, []) ∧
  decode [0x0F, 0x84, 0x10, 0x00] = .ok (.je ⟨false, false, none⟩ (.rel16 0x0010), []) ∧
  decode [0x8E, 0xD0] = .ok (.movSregRm ⟨false, false, none⟩ .ss (.reg .eax), []) ∧
  decode [0x67, 0x66, 0x2E, 0x81, 0x84, 0x88, 0x44, 0x33, 0x22, 0x11, 0x78, 0x56, 0x34, 0x12] =
    .ok (.add ⟨true, true, some .cs⟩
      (.rmImm .dword (.mem (.sib .eax (some .ecx) .x4 (.d32 0x11223344))) 0x12345678), [])

/-- Encodings outside the subset are refused, each under its own name: vectors X1 to X12 of
`95_test_vectors.md`, the treatment of U4 to U8 (log entry 21). -/
def Obligations.RefusesOutsideSubset : Prop :=
  decode [0xF4] = .error .undefinedOpcode ∧ decode [0xCD, 0x21] = .error .undefinedOpcode ∧
  decode [0xF6, 0xC8, 0x00] = .error .undefinedOpcode ∧ decode [0xD0, 0xF0] = .error .undefinedOpcode ∧
  decode [0x0F, 0xBF, 0xC3] = .error .undefinedOpcode ∧ decode [0x8E, 0xC8] = .error .badSreg ∧
  decode [0x8E, 0xF0] = .error .badSreg ∧ decode [0x8C, 0xF8] = .error .badSreg ∧
  decode [0xFF, 0xDB] = .error .farIndirectRegister ∧ decode [0xFF, 0xEB] = .error .farIndirectRegister ∧
  decode [0x66, 0x66, 0x90] = .error .badPrefix ∧ decode [0x26, 0x3E, 0x8A, 0x07] = .error .badPrefix ∧
  decode [0xF3, 0x90] = .error .badPrefix ∧ decode [0xF0, 0x87, 0x07] = .error .badPrefix ∧
  decode [0x66, 0xE8, 0, 0, 0, 0] = .error .opsize32ControlTransfer ∧
  decode [0x66, 0xCB] = .error .opsize32ControlTransfer ∧
  decode [0x66, 0xCF] = .error .opsize32ControlTransfer ∧ decode [0x66, 0x8E, 0xD8] = .error .opsizeOnMovSreg

/-! ## Reset and the step -/

/-- R71: after RESET, from any INIT_STATE, IF and every other described flag is 0. -/
def Obligations.ResetClearsDescribedFlags : Prop :=
  ∀ i : InitState, let f := (State.resetWith i).flags
    f.cf = false ∧ f.pf = false ∧ f.af = false ∧ f.zf = false ∧ f.sf = false ∧ f.tf = false ∧
    f.ief = false ∧ f.ovf = false

/-- A step in which RESET is signalled leaves the windows closed, the processor out of shutdown and the
described flags 0, and keeps memory (R450, R452, R453). The registers it gives are the model's choice (log
entries 5, 6 and 18) and are not stated here. -/
def Obligations.ResetSignalLeavesShutdown : Prop :=
  ∀ s : State, s.resetSignal = true → ∃ t, step s = .next t ∧ t.mem = s.mem ∧ t.shutdown = false ∧
    t.inhibit = false ∧ t.inhibitMaskable = false ∧ t.flags.ief = false ∧ t.flags.tf = false ∧
    t.flags.cf = false ∧ t.flags.pf = false ∧ t.flags.af = false ∧ t.flags.zf = false ∧
    t.flags.sf = false ∧ t.flags.ovf = false

/-- The state after RESET meets the invariant for every INIT_STATE whose memory has the canonical form (R451
requires EIP[31:16] = 0 of it), and so does the reset state of this model (log entries 5 to 7). -/
def Obligations.InvariantAtReset : Prop :=
  (∀ i : InitState, i.mem.wf = true → (State.resetWith i).Inv) ∧ State.reset.Inv

/-- Every step from a state that meets the invariant gives a state that meets it: memory keeps its
canonical form, and EIP stays within the code segment or just past it (R42, R80). -/
def Obligations.InvariantKeptByStep : Prop :=
  ∀ s t : State, s.Inv → step s = .next t → t.Inv

/-- When the bytes at CS:EIP decode to an instruction whose bytes may be fetched, and no external event is
due, the step is that instruction's meaning on the state after the fetch, with both windows closed and its
cycles charged (R41, R415, R470). The fetch leaves the state as it is where the bytes are plain memory; where
they are a device's, it takes the bytes the device presents and records each (R103). That the fetch reads
exactly the instruction's bytes is the model's choice (log entries 13 and 32). -/
def Obligations.StepRunsDecoded : Prop :=
  ∀ s : State,
    (∀ (i : Instr) (rest : List Byte),
      s.resetSignal = false → s.shutdown = false → s.flags.tf = false → s.recognised = none →
      decode s.codeBytes = .ok (i, rest) → s.checkCode i.length = .ok () →
      step s = exec i { s.fetched i.length with
        inhibit := false, inhibitMaskable := false, cycles := s.cycles + s.cost i }) ∧
    (∀ n, s.plain s.codeAddr n → s.fetched n = s) ∧
    (∀ n bs rest, s.devices s.codeAddr n → s.deviceIn = bs ++ rest → bs.length = n →
      s.fetched n = { s with
        deviceIn := rest
        deviceTrace := s.deviceTrace ++
          bs.zipIdx.map fun b => (⟨.input, s.codeAddr + b.2, b.1⟩ : DeviceAccess) })

/-- In shutdown the machine executes nothing and takes no interrupt (R62, R419); with TF = 1 the step is
refused by name (R422, U14). -/
def Obligations.ShutdownAndTrapFlagStop : Prop :=
  ∀ s : State, s.resetSignal = false →
    (s.shutdown = true → step s = .fault .shutdown) ∧
    (s.shutdown = false → s.flags.tf = true → step s = .refused .tfSet)

/-- An instruction whose bytes run past offset 0FFFFH is Interrupt 13 with the offset of its first byte:
the choice of U10, which the spec offers. Its bytes up to that offset can be fetched, and have been; where they
cannot, the model refuses first, which is its own choice, as is that Interrupt 13 goes before the refusal of an
encoding whose bytes the decoder has not all seen (log entry 15). -/
def Obligations.FetchPastLimitRaises : Prop :=
  ∀ s : State, s.resetSignal = false → s.shutdown = false → s.flags.tf = false → s.recognised = none →
    decode s.codeBytes = .error .needMore → s.checkCode s.codeRoom = .ok () →
    step s = { s.fetched s.codeRoom with inhibit := false, inhibitMaskable := false }.interrupt 13
      (s.eip.extractLsb' 0 16) false

/-- Which external interrupt the boundary takes: an NMI event unless `inhibit` is open, one of those waiting,
else INTR when IF is 1 and no window is open, with EIP as the return offset (R411, R412, R414, R415).
Identifier 2 and NMI before INTR are the decisions G9 and D18; that NMI events which wait are counted is the
model's choice (log entries 9 and 20). -/
def Obligations.BoundaryTakesInterrupts : Prop :=
  ∀ s : State, s.resetSignal = false → s.shutdown = false → s.flags.tf = false →
    (0 < s.nmi → s.inhibit = false →
      step s = { s with nmi := s.nmi - 1 }.interrupt 2 (s.eip.extractLsb' 0 16) false) ∧
    (∀ n : Byte, s.nmi = 0 → s.intr = some n → s.flags.ief = true → s.inhibit = false →
      s.inhibitMaskable = false → step s = s.interrupt n (s.eip.extractLsb' 0 16) false) ∧
    (s.nmi = 0 ∨ s.inhibit = true →
      s.intr = none ∨ s.flags.ief = false ∨ s.inhibit = true ∨ s.inhibitMaskable = true →
      s.recognised = none)

/-- After MOV SS or POP SS nothing is recognised at the next boundary; after STI with IF = 0, INTR is not,
and after a CLI that follows it INTR is still not (R413, R461, R462). -/
def Obligations.WindowsHoldInterrupts : Prop :=
  ∀ (s t : State) (p q : Prefixes),
    (∀ rm v, s.readRM p rm .word = .ok v → exec (.movSregRm p .ss rm) s = .next t → t.recognised = none) ∧
    (s.canPop 0 p.opSize.bytes → exec (.popSreg p .ss) s = .next t → t.recognised = none) ∧
    (s.flags.ief = false → s.nmi = 0 → exec (.sti p) s = .next t →
      t.recognised = none ∧ ∀ u, exec (.cli q) (t.begin (.cli q)) = .next u → u.recognised = none)

/-! ## Registers and memory -/

/-- Reading a name returns its slice of the 32-bit register; what is written reads back; writing a 16-bit
name keeps bits 31:16, writing an 8-bit name keeps the other 24 bits; no other register changes (R33, where
the bits kept are the decision D1). -/
def Obligations.RegisterNamesAreViews : Prop :=
  ∀ (g : Regs) (r : Reg),
    g.read r .dword = g.get r ∧ g.read r .word = (g.get r).extractLsb' 0 16 ∧
    g.read r .byte = (g.get r.byteHome).extractLsb' (if r.byteHigh then 8 else 0) 8 ∧
    (∀ w (v : BitVec w.bits), (g.write r w v).read r w = v) ∧
    (∀ v : Word, ((g.write r .word v).get r).extractLsb' 16 16 = (g.get r).extractLsb' 16 16) ∧
    (∀ v : Byte, ((g.write r .byte v).get r.byteHome).extractLsb' 16 16 =
        (g.get r.byteHome).extractLsb' 16 16 ∧
      ((g.write r .byte v).get r.byteHome).extractLsb' (if r.byteHigh then 0 else 8) 8 =
        (g.get r.byteHome).extractLsb' (if r.byteHigh then 0 else 8) 8) ∧
    (∀ (v : BitVec 16) (r' : Reg), r' ≠ r → (g.write r .word v).get r' = g.get r') ∧
    (∀ (v : BitVec 32) (r' : Reg), r' ≠ r → (g.write r .dword v).get r' = g.get r') ∧
    (∀ (v : BitVec 8) (r' : Reg), r' ≠ r.byteHome → (g.write r .byte v).get r' = g.get r')

/-- Bytes stored at an address read back little-endian, byte `k` being bits 8k+7 to 8k of the value; every
other byte reads as before; the canonical form is kept (R84, R85). -/
def Obligations.MemoryStoresLittleEndian : Prop :=
  ∀ (m : Memory) (a : Nat) (w : Width) (v : BitVec w.bits), m.wf = true → a + w.bytes ≤ 2 ^ 32 →
    (m.setBytes a (leBytes w v)).read a w = v ∧
    (∀ k, k < w.bytes → (m.setBytes a (leBytes w v)).get (a + k) = v.extractLsb' (8 * k) 8) ∧
    (∀ b, b < a ∨ a + w.bytes ≤ b → (m.setBytes a (leBytes w v)).get b = m.get b) ∧
    (m.setBytes a (leBytes w v)).wf = true

/-- A memory operand with a byte past offset 0FFFFH raises Interrupt 13 with the instruction's own offset and
none of its effect, in every form that has one; BT r/m,r, whose address is not the operand's, is in
`BitTestInMemory` (R90, R406, R407). The document has the check for DIV and IDIV only: that every other
instruction makes it is the decision D3, and the pushed offset is the decision D9. -/
def Obligations.OperandPastLimitRaises : Prop :=
  ∀ (s : State) (p : Prefixes) (w : Width) (m : Mem) (r : Reg) (sr : SReg) (imm : BitVec w.bits) (i8 : Byte)
    (n : Count) (off : Moffs),
    let x : RM := .mem m
    let past := fun (k : Nat) => 0x10000 < (s.addr m).toNat + k
    let binary := fun (f : AluForm) =>
      (s.raises (.add p f) 13 ∧ s.raises (.adc p f) 13 ∧ s.raises (.sub p f) 13 ∧ s.raises (.sbb p f) 13) ∧
      s.raises (.cmp p f) 13 ∧ s.raises (.and p f) 13 ∧ s.raises (.or p f) 13 ∧ s.raises (.xor p f) 13
    (past w.bytes →
      (binary (.rmImm w x imm) ∧ binary (.rmImm8 w x i8) ∧ binary (.rmReg w x r) ∧ binary (.regRm w r x)) ∧
      (s.raises (.test p (.rmImm w x imm)) 13 ∧ s.raises (.test p (.rmReg w x r)) 13) ∧
      (s.raises (.incRm p w x) 13 ∧ s.raises (.decRm p w x) 13 ∧ s.raises (.neg p w x) 13 ∧
        s.raises (.not p w x) 13) ∧
      (s.raises (.mul p w x) 13 ∧ s.raises (.imulAcc p w x) 13 ∧ s.raises (.imulRRmImm p w r x imm) 13 ∧
        s.raises (.div p w x) 13 ∧ s.raises (.idiv p w x) 13) ∧
      (s.raises (.sal p w x n) 13 ∧ s.raises (.shl p w x n) 13 ∧ s.raises (.shr p w x n) 13 ∧
        s.raises (.sar p w x n) 13) ∧
      (s.raises (.rol p w x n) 13 ∧ s.raises (.ror p w x n) 13 ∧ s.raises (.rcl p w x n) 13 ∧
        s.raises (.rcr p w x n) 13) ∧
      s.raises (.movRmR p w x r) 13 ∧ s.raises (.movRRm p w r x) 13 ∧ s.raises (.movRmImm p w x imm) 13 ∧
      s.raises (.xchgRmR p w x r) 13) ∧
    (past p.opSize.bytes →
      s.raises (.imulRRm p r x) 13 ∧ s.raises (.imulRRmImm8 p r x i8) 13 ∧ s.raises (.btRmImm p x i8) 13 ∧
      s.raises (.pushRm p x) 13 ∧
      (m.espBase = false → s.canPop 0 p.opSize.bytes → s.raises (.popRm p x) 13)) ∧
    (past 1 → s.raises (.movsx8 p r x) 13 ∧ s.raises (.movzx8 p r x) 13) ∧
    (past 2 → s.raises (.movsx16 p r x) 13 ∧ s.raises (.movzx16 p r x) 13 ∧ s.raises (.movRmSreg p x sr) 13 ∧
      s.raises (.movSregRm p sr x) 13 ∧ s.raises (.jmpRm p x) 13 ∧ s.raises (.callRm p x) 13) ∧
    (past 4 → s.raises (.jmpMem p m) 13 ∧ s.raises (.callMem p m) 13) ∧
    (0x10000 < off.offset + w.bytes →
      s.raises (.movAccMoffs p w off) 13 ∧ s.raises (.movMoffsAcc p w off) 13)

/-! ## Flag functions -/

/-- AddFlags (R52; AF at every width is the decision D15): the result is the sum modulo 2^n; CF is the carry
out, OF the signed overflow by its sign form (which the range form and the carry form agree with), AF the
carry out of bit 3, and SF, ZF and PF are the result's. -/
def Obligations.AddFlagsRule : Prop :=
  ∀ (w : Width) (a b : BitVec w.bits) (c : Bool), let r := a + b + BitVec.ofNat w.bits c.toNat
    addResult a b c = r ∧
    addFlags a b c =
      ⟨.put ((a.msb == b.msb) && (r.msb != a.msb)), .put r.msb, .put (decide (r = 0)),
       .put (decide (16 ≤ (a.extractLsb' 0 4).toNat + (b.extractLsb' 0 4).toNat + c.toNat)),
       .put (parity r), .put (decide (2 ^ w.bits ≤ a.toNat + b.toNat + c.toNat))⟩ ∧
    (((a.msb == b.msb) && (r.msb != a.msb)) = true ↔
      a.toInt + b.toInt + c.toNat < -2 ^ (w.bits - 1) ∨ 2 ^ (w.bits - 1) ≤ a.toInt + b.toInt + c.toNat) ∧
    (((a.msb == b.msb) && (r.msb != a.msb)) =
      (decide (2 ^ (w.bits - 1) ≤
          a.toNat % 2 ^ (w.bits - 1) + b.toNat % 2 ^ (w.bits - 1) + c.toNat) !=
        decide (2 ^ w.bits ≤ a.toNat + b.toNat + c.toNat)))

/-- SubFlags (R53; AF at every width is the decision D15): the result is the difference modulo 2^n; CF is the
borrow, OF the signed overflow by its sign form (which the range form agrees with), AF the borrow into bit 3,
and SF, ZF and PF are the result's. -/
def Obligations.SubFlagsRule : Prop :=
  ∀ (w : Width) (a b : BitVec w.bits) (c : Bool), let r := a - b - BitVec.ofNat w.bits c.toNat
    subResult a b c = r ∧
    subFlags a b c =
      ⟨.put ((a.msb != b.msb) && (r.msb != a.msb)), .put r.msb, .put (decide (r = 0)),
       .put (decide ((a.extractLsb' 0 4).toNat < (b.extractLsb' 0 4).toNat + c.toNat)),
       .put (parity r), .put (decide (a.toNat < b.toNat + c.toNat))⟩ ∧
    (((a.msb != b.msb) && (r.msb != a.msb)) = true ↔
      a.toInt - b.toInt - c.toNat < -2 ^ (w.bits - 1) ∨ 2 ^ (w.bits - 1) ≤ a.toInt - b.toInt - c.toNat)

/-- The sixteen conditions on any flags, as the table of R320 gives them; and after CMP a,b (R250) the
conditions B, AE, BE and A compare the operands as unsigned numbers, L, GE, LE and G as signed ones, E and NE
for equality. -/
def Obligations.ConditionsCompare : Prop :=
  (∀ g : EFlags,
    (Cond.o.holds g = g.ovf ∧ Cond.no.holds g = !g.ovf ∧ Cond.b.holds g = g.cf ∧ Cond.ae.holds g = !g.cf) ∧
    (Cond.e.holds g = g.zf ∧ Cond.ne.holds g = !g.zf ∧ Cond.be.holds g = (g.cf || g.zf) ∧
      Cond.a.holds g = (!g.cf && !g.zf)) ∧
    (Cond.s.holds g = g.sf ∧ Cond.ns.holds g = !g.sf ∧ Cond.p.holds g = g.pf ∧ Cond.np.holds g = !g.pf) ∧
    Cond.l.holds g = (g.sf != g.ovf) ∧ Cond.ge.holds g = (g.sf == g.ovf) ∧
    Cond.le.holds g = (g.zf || (g.sf != g.ovf)) ∧ Cond.g.holds g = (!g.zf && (g.sf == g.ovf))) ∧
  ∀ (w : Width) (a b : BitVec w.bits) (f g : EFlags), (subFlags a b false).allows f g →
    (Cond.b.holds g = true ↔ a.toNat < b.toNat) ∧ (Cond.ae.holds g = true ↔ b.toNat ≤ a.toNat) ∧
    (Cond.be.holds g = true ↔ a.toNat ≤ b.toNat) ∧ (Cond.a.holds g = true ↔ b.toNat < a.toNat) ∧
    (Cond.l.holds g = true ↔ a.toInt < b.toInt) ∧ (Cond.ge.holds g = true ↔ b.toInt ≤ a.toInt) ∧
    (Cond.le.holds g = true ↔ a.toInt ≤ b.toInt) ∧ (Cond.g.holds g = true ↔ b.toInt < a.toInt) ∧
    (Cond.e.holds g = true ↔ a = b) ∧ (Cond.ne.holds g = true ↔ a ≠ b)

/-! ## Binary arithmetic -/

/-- ADD and ADC: DEST becomes DEST + SRC, with CF added for ADC, with the flags of `AddFlags`; nothing
else changes (R244, R245). -/
def Obligations.AddsComplete : Prop :=
  ∀ (s : State) (p : Prefixes) (f : AluForm), s.mem.wf = true → s.reachesForm p f →
    let a := s.destination p f
    let b := s.source p f
    s.completesWith (.add p f) f.dest f.width (a + b) (addFlags a b false) ∧
    s.completesWith (.adc p f) f.dest f.width (a + b + BitVec.ofNat f.width.bits s.flags.cf.toNat)
      (addFlags a b s.flags.cf)

/-- SUB and SBB: DEST becomes DEST - SRC, less CF for SBB, with the flags of `SubFlags`; nothing else
changes (R246, R247). -/
def Obligations.SubtractsComplete : Prop :=
  ∀ (s : State) (p : Prefixes) (f : AluForm), s.mem.wf = true → s.reachesForm p f →
    let a := s.destination p f
    let b := s.source p f
    s.completesWith (.sub p f) f.dest f.width (a - b) (subFlags a b false) ∧
    s.completesWith (.sbb p f) f.dest f.width (a - b - BitVec.ofNat f.width.bits s.flags.cf.toNat)
      (subFlags a b s.flags.cf)

/-- R250: CMP sets the flags of the subtraction and writes no operand. -/
def Obligations.CompareWritesFlagsOnly : Prop :=
  ∀ (s : State) (p : Prefixes) (f : AluForm), s.reachesForm p f →
    s.completesRegs (.cmp p f) s.regs (subFlags (s.destination p f) (s.source p f) false)

/-- R55: INC and DEC, on r/m and on +r, set OF, SF, ZF, AF and PF as adding and subtracting 1 do and leave
CF unchanged; the operand goes up or down by 1, and OF is set exactly at the largest, and at the most
negative, value (R248, R249). -/
def Obligations.IncDecComplete : Prop :=
  ∀ (s : State) (p : Prefixes) (w : Width) (rm : RM) (r : Reg), s.mem.wf = true → s.reaches p rm w →
    let a := s.operand p rm w
    let b := s.reg r p.opSize
    (addFlags a 1 false).ovf = .put (decide (a.toInt = 2 ^ (w.bits - 1) - 1)) ∧
    (subFlags a 1 false).ovf = .put (decide (a.toInt = -2 ^ (w.bits - 1))) ∧
    s.completesWith (.incRm p w rm) rm w (a + 1) { addFlags a 1 false with cf := .keep } ∧
    s.completesWith (.decRm p w rm) rm w (a - 1) { subFlags a 1 false with cf := .keep } ∧
    s.completesWith (.incR p r) (.reg r) p.opSize (b + 1) { addFlags b 1 false with cf := .keep } ∧
    s.completesWith (.decR p r) (.reg r) p.opSize (b - 1) { subFlags b 1 false with cf := .keep }

/-- NEG: the operand becomes its negative; CF is 1 unless it is 0, OF is 1 only for the most negative value,
AF is free (R251). -/
def Obligations.NegCompletes : Prop :=
  ∀ (s : State) (p : Prefixes) (w : Width) (rm : RM), s.mem.wf = true → s.reaches p rm w →
    let a := s.operand p rm w
    s.completesWith (.neg p w rm) rm w (-a)
      { subFlags 0 a false with
        af := .undef, cf := .put (decide (a ≠ 0)), ovf := .put (decide (a.toInt = -2 ^ (w.bits - 1))) }

/-- R252: MUL, encoded `F6 /4` and `F7 /4`: the exact unsigned product in AH:AL, DX:AX or EDX:EAX; CF = OF =
high half not 0, the other status flags free. -/
def Obligations.MulCompletes : Prop :=
  ∀ (s : State) (p : Prefixes) (w : Width) (rm : RM), s.reaches p rm w →
    (Instr.mul p w rm).body = (if w = .byte then 0xF6 else 0xF7) :: rm.bytes 4 ∧
    ∃ hi lo : BitVec w.bits,
      hi.toNat * 2 ^ w.bits + lo.toNat = (s.reg .eax w).toNat * (s.operand p rm w).toNat ∧
      s.completesRegs (.mul p w rm) ((s.regs.write .eax w lo).write (highReg w) w hi)
        ⟨.put (decide (hi ≠ 0)), .undef, .undef, .undef, .undef, .put (decide (hi ≠ 0))⟩

/-- R253: one-operand IMUL, encoded `F6 /5` and `F7 /5`: the exact signed product in AH:AL, DX:AX or
EDX:EAX; CF = OF = 0 exactly when the product is the sign extension of its low half, the other status flags
free. -/
def Obligations.ImulAccumulatorCompletes : Prop :=
  ∀ (s : State) (p : Prefixes) (w : Width) (rm : RM), s.reaches p rm w →
    (Instr.imulAcc p w rm).body = (if w = .byte then 0xF6 else 0xF7) :: rm.bytes 5 ∧
    ∃ hi lo : BitVec w.bits,
      (hi ++ lo).toInt = (s.reg .eax w).toInt * (s.operand p rm w).toInt ∧
      s.completesRegs (.imulAcc p w rm) ((s.regs.write .eax w lo).write (highReg w) w hi)
        ⟨.put (decide ((hi ++ lo).toInt ≠ lo.toInt)), .undef, .undef, .undef, .undef,
         .put (decide ((hi ++ lo).toInt ≠ lo.toInt))⟩

/-- The two- and three-operand IMUL: the low half of the signed product in the register, CF = OF = it does
not fit; an imm8 is sign-extended first (R254 to R257). -/
def Obligations.ImulRegisterCompletes : Prop :=
  ∀ (s : State) (p : Prefixes) (w : Width) (r : Reg) (rm : RM) (i8 : Byte) (imm : BitVec w.bits),
    let flagsOf := fun (n : Nat) (x y : BitVec n) =>
      (⟨.put (decide ((x * y).toInt ≠ x.toInt * y.toInt)), .undef, .undef, .undef, .undef,
        .put (decide ((x * y).toInt ≠ x.toInt * y.toInt))⟩ : StatusWrite)
    (s.reaches p rm p.opSize →
      let a := s.reg r p.opSize
      let b := s.operand p rm p.opSize
      let k := i8.signExtend p.opSize.bits
      s.completesWith (.imulRRm p r rm) (.reg r) p.opSize (a * b) (flagsOf _ a b) ∧
      s.completesWith (.imulRRmImm8 p r rm i8) (.reg r) p.opSize (b * k) (flagsOf _ b k)) ∧
    (s.reaches p rm w →
      s.completesWith (.imulRRmImm p w r rm imm) (.reg r) w (s.operand p rm w * imm)
        (flagsOf _ (s.operand p rm w) imm))

/-- DIV when the divisor is not 0 and the quotient fits: N = q * d + r with 0 <= r < d, in AL and AH, AX and
DX, or EAX and EDX; the status flags free (R258, R262). -/
def Obligations.DivCompletes : Prop :=
  ∀ (s : State) (p : Prefixes) (w : Width) (rm : RM), s.reaches p rm w →
    let d := (s.operand p rm w).toNat
    let n := (s.reg (highReg w) w ++ s.reg .eax w).toNat
    d ≠ 0 → n / d < 2 ^ w.bits →
    ∃ q r : BitVec w.bits, n = q.toNat * d + r.toNat ∧ r.toNat < d ∧
      s.completesRegs (.div p w rm) ((s.regs.write .eax w q).write (highReg w) w r)
        ⟨.undef, .undef, .undef, .undef, .undef, .undef⟩

/-- IDIV when the divisor is not 0 and the quotient truncated toward 0 fits: N = q * d + r, |r| < |d|, and r
is 0 or has the sign of N; the status flags free (R259, R262). -/
def Obligations.IdivCompletes : Prop :=
  ∀ (s : State) (p : Prefixes) (w : Width) (rm : RM), s.reaches p rm w →
    let d := (s.operand p rm w).toInt
    let n := (s.reg (highReg w) w ++ s.reg .eax w).toInt
    d ≠ 0 → -2 ^ (w.bits - 1) ≤ n.tdiv d → n.tdiv d < 2 ^ (w.bits - 1) →
    ∃ q r : BitVec w.bits, n = q.toInt * d + r.toInt ∧ |r.toInt| < |d| ∧ 0 ≤ r.toInt * n ∧
      s.completesRegs (.idiv p w rm) ((s.regs.write .eax w q).write (highReg w) w r)
        ⟨.undef, .undef, .undef, .undef, .undef, .undef⟩

/-- DIV and IDIV raise Interrupt 0 when the divisor is 0 or the quotient does not fit (R258 to R260, R404).
That the offset pushed is the instruction's own is the decision D9 of R407; that the image pushed has free
status flags (the argument `true`) is the decision D16 (log entry 11). -/
def Obligations.DivideErrorRaises : Prop :=
  ∀ (s : State) (p : Prefixes) (w : Width) (rm : RM), s.reaches p rm w →
    let d := s.operand p rm w
    let n := s.reg (highReg w) w ++ s.reg .eax w
    (d = 0 ∨ 2 ^ w.bits ≤ n.toNat / d.toNat →
      exec (.div p w rm) s = s.interrupt 0 (s.eip.extractLsb' 0 16) true) ∧
    (d = 0 ∨ n.toInt.tdiv d.toInt < -2 ^ (w.bits - 1) ∨ 2 ^ (w.bits - 1) ≤ n.toInt.tdiv d.toInt →
      exec (.idiv p w rm) s = s.interrupt 0 (s.eip.extractLsb' 0 16) true)

/-! ## Logic and bit test -/

/-- AND, OR and XOR: DEST becomes the bitwise result; OF = CF = 0, SF, ZF and PF are the result's, AF is
free (R281 to R283, R54). -/
def Obligations.LogicCompletes : Prop :=
  ∀ (s : State) (p : Prefixes) (f : AluForm), s.mem.wf = true → s.reachesForm p f →
    let flagsOf := fun (r : BitVec f.width.bits) =>
      (⟨.put false, .put r.msb, .put (decide (r = 0)), .undef, .put (parity r), .put false⟩ : StatusWrite)
    let a := s.destination p f
    let b := s.source p f
    s.completesWith (.and p f) f.dest f.width (a &&& b) (flagsOf (a &&& b)) ∧
    s.completesWith (.or p f) f.dest f.width (a ||| b) (flagsOf (a ||| b)) ∧
    s.completesWith (.xor p f) f.dest f.width (a ^^^ b) (flagsOf (a ^^^ b))

/-- R280: NOT, encoded `F6 /2` and `F7 /2`, inverts every bit of the operand and changes no flag. -/
def Obligations.NotCompletes : Prop :=
  ∀ (s : State) (p : Prefixes) (w : Width) (rm : RM), s.mem.wf = true → s.reaches p rm w →
    (Instr.not p w rm).body = (if w = .byte then 0xF6 else 0xF7) :: rm.bytes 2 ∧
    s.completesWith (.not p w rm) rm w (~~~s.operand p rm w) ⟨.keep, .keep, .keep, .keep, .keep, .keep⟩

/-- TEST sets the flags of AND and writes no operand (R284). -/
def Obligations.TestWritesFlagsOnly : Prop :=
  ∀ (s : State) (p : Prefixes) (f : TestForm), s.reaches p f.left f.width →
    let r := s.operand p f.left f.width &&& s.testSrc f
    s.completesRegs (.test p f) s.regs
      ⟨.put false, .put r.msb, .put (decide (r = 0)), .undef, .put (parity r), .put false⟩

/-- BT with a register base or an immediate offset: CF is the bit at the offset modulo the width, the other
status flags free, nothing written (R285, R286). -/
def Obligations.BitTestInPlace : Prop :=
  ∀ (s : State) (p : Prefixes) (b r : Reg) (rm : RM) (imm : Byte),
    s.completesRegs (.btRmR p (.reg b) r) s.regs
      ⟨.undef, .undef, .undef, .undef, .undef,
       .put ((s.reg b p.opSize).getLsbD ((s.reg r p.opSize).toNat % p.opSize.bits))⟩ ∧
    (s.reaches p rm p.opSize →
      s.completesRegs (.btRmImm p rm imm) s.regs
        ⟨.undef, .undef, .undef, .undef, .undef,
         .put ((s.operand p rm p.opSize).getLsbD (imm.toNat % p.opSize.bits))⟩)

/-- BT on a bit string in memory: CF is bit `o MODF 8` of the byte `o DIVF 8` from the operand's address,
`o` being the signed offset, when the word or doubleword that holds it lies in the segment; when it lies
outside, Interrupt 13, the choice of U15 (R285; log entry 23). -/
def Obligations.BitTestInMemory : Prop :=
  ∀ (s : State) (p : Prefixes) (m : Mem) (r : Reg),
    let o := (s.reg r p.opSize).toInt
    let a : Int := (s.addr m).toNat + p.opSize.bytes * o.fdiv p.opSize.bits
    let byte : Int := (s.addr m).toNat + o.fdiv 8
    (0 ≤ a → s.reachesAt (m.seg p) a.toNat p.opSize.bytes →
      s.completesRegs (.btRmR p (.mem m) r) s.regs
        ⟨.undef, .undef, .undef, .undef, .undef,
         .put ((s.mem.get (s.linear (m.seg p) byte.toNat)).getLsbD (o.fmod 8).toNat)⟩) ∧
    (a < 0 ∨ 0x10000 < a + p.opSize.bytes → s.raises (.btRmR p (.mem m) r) 13)

/-! ## Shifts and rotates -/

/-- The closed forms of R301 to R303: SAL and SHR by `k` are the shifts of the bit vector, SAR the one that
keeps the sign; CF is the last bit shifted out. -/
def Obligations.ShiftClosedForms : Prop :=
  ∀ (w : Width) (k : Nat) (c : Bool) (x : BitVec w.bits), 0 < k →
    (salBy k ⟨c, x⟩).1 = x <<< k ∧
    (salBy k ⟨c, x⟩).2.cf = .put (decide (k ≤ w.bits) && x.getLsbD (w.bits - k)) ∧
    (shrBy k ⟨c, x⟩).1 = x >>> k ∧ (shrBy k ⟨c, x⟩).2.cf = .put (x.getLsbD (k - 1)) ∧
    (sarBy k ⟨c, x⟩).1 = x.sshiftRight k ∧
    (sarBy k ⟨c, x⟩).2.cf = .put (if k < w.bits then x.getLsbD (k - 1) else x.msb)

/-- ROL and ROR by `k` rotate the bit vector by `k` modulo its width, CF being a copy of the last bit moved;
RCL and RCR by `k` rotate CF and the operand below it, as one bit vector of the width plus 1, so that by the
width plus 1 they restore both (R305 to R309). -/
def Obligations.RotateClosedForms : Prop :=
  ∀ (w : Width) (k : Nat) (c : Bool) (x : BitVec w.bits),
    let y : BitVec (w.bits + 1) := BitVec.cons c x
    (rolBy k ⟨c, x⟩).1 = x.rotateLeft k ∧ (rorBy k ⟨c, x⟩).1 = x.rotateRight k ∧
    (0 < k → (rolBy k ⟨c, x⟩).2.cf = .put ((x.rotateLeft k).getLsbD 0) ∧
      (rorBy k ⟨c, x⟩).2.cf = .put (x.rotateRight k).msb) ∧
    (rclBy k ⟨c, x⟩).1 = (y.rotateLeft k).setWidth w.bits ∧
    (rcrBy k ⟨c, x⟩).1 = (y.rotateRight k).setWidth w.bits ∧
    (0 < k → (rclBy k ⟨c, x⟩).2.cf = .put (y.rotateLeft k).msb ∧
      (rcrBy k ⟨c, x⟩).2.cf = .put (y.rotateRight k).msb) ∧
    (rclBy (w.bits + 1) ⟨c, x⟩).1 = x ∧ (rclBy (w.bits + 1) ⟨c, x⟩).2.cf = .put c ∧
    (rcrBy (w.bits + 1) ⟨c, x⟩).1 = x ∧ (rcrBy (w.bits + 1) ⟨c, x⟩).2.cf = .put c

/-- Every shift and rotate completes with COUNT the raw count (1, CL or the immediate) modulo 32: the result
and the flags of its closed or iterated form when COUNT is not 0; the operand and CF unchanged, OF free, when
COUNT is 0, with SF, ZF, AF and PF free after a shift and unchanged after a rotate (R300 to R309). -/
def Obligations.ShiftsComplete : Prop :=
  ∀ (s : State) (p : Prefixes) (w : Width) (rm : RM) (n : Count), s.mem.wf = true → s.reaches p rm w →
    let x := s.operand p rm w
    let k := match n with
      | .one => 1
      | .cl => (s.reg .ecx .byte).toNat % 32
      | .imm v => v.toNat % 32
    let done := fun (i : Instr) (g : Nat → CarryAnd w.bits → BitVec w.bits × StatusWrite)
        (zero : StatusWrite) =>
      if k = 0 then s.completesRegs i s.regs zero
      else s.completesWith i rm w (g k ⟨s.flags.cf, x⟩).1 (g k ⟨s.flags.cf, x⟩).2
    let freeAll : StatusWrite := ⟨.undef, .undef, .undef, .undef, .undef, .keep⟩
    let freeOf : StatusWrite := ⟨.undef, .keep, .keep, .keep, .keep, .keep⟩
    done (.sal p w rm n) salBy freeAll ∧ done (.shl p w rm n) salBy freeAll ∧
    done (.shr p w rm n) shrBy freeAll ∧ done (.sar p w rm n) sarBy freeAll ∧
    done (.rol p w rm n) rolBy freeOf ∧ done (.ror p w rm n) rorBy freeOf ∧
    done (.rcl p w rm n) rclBy freeOf ∧ done (.rcr p w rm n) rcrBy freeOf

/-- The flags of a shift by 1: SF, ZF and PF from the result, AF free, and OF the two top bits' difference
for SAL, the old top bit for SHR, 0 for SAR; of a rotate by 1: OF is whether the top bit changed, and only
CF and OF change; by more than 1, OF is free (R304, R309). -/
def Obligations.ShiftFlagsByCount : Prop :=
  ∀ (w : Width) (k : Nat) (c : Bool) (x : BitVec w.bits), 0 < k →
    let shifts := [(salBy k ⟨c, x⟩, x.msb != x.getLsbD (w.bits - 2)), (shrBy k ⟨c, x⟩, x.msb),
      (sarBy k ⟨c, x⟩, false)]
    let rotates := [rolBy k ⟨c, x⟩, rorBy k ⟨c, x⟩, rclBy k ⟨c, x⟩, rcrBy k ⟨c, x⟩]
    (∀ e ∈ shifts, e.1.2.sf = .put e.1.1.msb ∧ e.1.2.zf = .put (decide (e.1.1 = 0)) ∧
      e.1.2.pf = .put (parity e.1.1) ∧ e.1.2.af = .undef ∧
      e.1.2.ovf = if k = 1 then .put e.2 else .undef) ∧
    (∀ e ∈ rotates, e.2.sf = .keep ∧ e.2.zf = .keep ∧ e.2.pf = .keep ∧ e.2.af = .keep ∧
      e.2.ovf = if k = 1 then .put (e.1.msb != x.msb) else .undef)

/-! ## Data movement -/

/-- The MOV forms that store into r/m, and MOV moffs,accumulator: the source is written, no flag changes
(R200, R202, R205, R207). -/
def Obligations.MovToOperandCompletes : Prop :=
  ∀ (s : State) (p : Prefixes) (w : Width) (rm : RM) (r : Reg) (sr : SReg) (imm : BitVec w.bits)
    (off : Moffs), s.mem.wf = true →
    (s.reaches p rm w →
      s.completesWith (.movRmR p w rm r) rm w (s.reg r w) keepFlags ∧
      s.completesWith (.movRmImm p w rm imm) rm w imm keepFlags) ∧
    (s.reaches p rm .word → s.completesWith (.movRmSreg p rm sr) rm .word (s.sreg sr) keepFlags) ∧
    (s.reachesAt (p.seg.getD .ds) off.offset w.bytes →
      ∃ t, exec (.movMoffsAcc p w off) s = .next t ∧ t.regs = s.regs ∧
        s.stores t (s.linear (p.seg.getD .ds) off.offset) w (s.reg .eax w) ∧ t.segs = s.segs ∧
        t.flags = s.flags ∧ s.sameControl t ∧ s.goesOn t (.movMoffsAcc p w off))

/-- The forms that load a general register from r/m, an immediate or moffs, and MOVSX and MOVZX: no flag
and no memory changes (R201, R204, R206, R217, R218). -/
def Obligations.RegisterLoadsComplete : Prop :=
  ∀ (s : State) (p : Prefixes) (w : Width) (rm : RM) (r : Reg) (imm : BitVec w.bits) (off : Moffs),
    s.completesWith (.movRImm p w r imm) (.reg r) w imm keepFlags ∧
    (s.reaches p rm w →
      s.completesWith (.movRRm p w r rm) (.reg r) w (s.operand p rm w) keepFlags) ∧
    (s.reaches p rm .byte →
      s.completesWith (.movsx8 p r rm) (.reg r) p.opSize
        ((s.operand p rm .byte).signExtend p.opSize.bits) keepFlags ∧
      s.completesWith (.movzx8 p r rm) (.reg r) p.opSize
        ((s.operand p rm .byte).setWidth p.opSize.bits) keepFlags) ∧
    (s.reaches p rm .word →
      s.completesWith (.movsx16 p r rm) (.reg r) .dword ((s.operand p rm .word).signExtend 32) keepFlags ∧
      s.completesWith (.movzx16 p r rm) (.reg r) .dword ((s.operand p rm .word).setWidth 32) keepFlags) ∧
    (s.reachesAt (p.seg.getD .ds) off.offset w.bytes →
      s.completesWith (.movAccMoffs p w off) (.reg .eax) w
        (s.mem.read (s.linear (p.seg.getD .ds) off.offset) w) keepFlags)

/-- Loading a segment register by MOV or by POP: that register alone takes the word, POP moving SP, and
loading SS opens the inhibit window (R203, R216). -/
def Obligations.SegmentLoadsComplete : Prop :=
  ∀ (s : State) (p : Prefixes) (sr : SReg) (rm : RM), sr ≠ .cs →
    (s.reaches p rm .word →
      ∃ t, exec (.movSregRm p sr rm) s = .next t ∧ t.regs = s.regs ∧ s.sameMemory t ∧
        t.segs = s.segs.set sr (s.operand p rm .word) ∧ t.flags = s.flags ∧
        s.sameControl { t with inhibit := s.inhibit } ∧ t.inhibit = (decide (sr = .ss) || s.inhibit) ∧
        s.goesOn t (.movSregRm p sr rm)) ∧
    (s.canPop 0 p.opSize.bytes →
      ∃ t, exec (.popSreg p sr) s = .next t ∧ t.regs = s.poppedRegs p.opSize.bytes ∧ s.sameMemory t ∧
        t.segs = s.segs.set sr (s.stackWord 0) ∧ t.flags = s.flags ∧
        s.sameControl { t with inhibit := s.inhibit } ∧ t.inhibit = (decide (sr = .ss) || s.inhibit) ∧
        s.goesOn t (.popSreg p sr))

/-- XCHG: the two operands change places and no flag changes (R208, R209). -/
def Obligations.ExchangeCompletes : Prop :=
  ∀ (s : State) (p : Prefixes) (w : Width) (r b : Reg) (m : Mem), s.mem.wf = true →
    s.completesRegs (.xchgAcc p r)
      ((s.regs.write .eax p.opSize (s.reg r p.opSize)).write r p.opSize (s.reg .eax p.opSize)) keepFlags ∧
    s.completesRegs (.xchgRmR p w (.reg b) r)
      ((s.regs.write b w (s.reg r w)).write r w (s.reg b w)) keepFlags ∧
    (s.reaches p (.mem m) w →
      ∃ t, exec (.xchgRmR p w (.mem m) r) s = .next t ∧
        t.regs = s.regs.write r w (s.operand p (.mem m) w) ∧
        s.stores t (s.operandAddr p m) w (s.reg r w) ∧ t.segs = s.segs ∧ t.flags = s.flags ∧
        s.sameControl t ∧ s.goesOn t (.xchgRmR p w (.mem m) r))

/-- PUSH of r/m, of a register, of an immediate and of a segment register when the item fits: SP goes down
by the operand size and the value before the instruction stands at the new top of stack; of a 32-bit push
of a segment register only the low word is fixed (R210 to R213, R96, U3). PUSH r/m of a register, `FF /6`
with mod = 11, is the addition G4 of R158 (log entry 25), a form a model may refuse. -/
def Obligations.PushCompletes : Prop :=
  ∀ (s : State) (p : Prefixes) (rm : RM) (r : Reg) (w : Width) (imm : BitVec w.bits) (sr : SReg),
    s.mem.wf = true →
    (s.reaches p rm p.opSize → s.canPush 0 p.opSize.bytes →
      s.pushes (.pushRm p rm) p.opSize (s.operand p rm p.opSize)) ∧
    (s.canPush 0 p.opSize.bytes → s.pushes (.pushR p r) p.opSize (s.reg r p.opSize)) ∧
    (s.canPush 0 w.bytes → s.pushes (.pushImm p w imm) w imm) ∧
    (s.canPush 0 p.opSize.bytes →
      ∃ v : BitVec p.opSize.bits, v.setWidth 16 = s.sreg sr ∧ s.pushes (.pushSreg p sr) p.opSize v)

/-- POP to a register: SP goes up and then the register takes the value, so that POP SP leaves the value
popped; POP to memory stores it at the address formed before SP changed (R214, R215, R97), and is refused
when that address has ESP as its base (the treatment of U9, log entry 26). POP r/m of a register, `8F /0` with
mod = 11, is the addition G4 of R158 (log entry 25), a form a model may refuse. -/
def Obligations.PopCompletes : Prop :=
  ∀ (s : State) (p : Prefixes) (r : Reg) (m : Mem), s.mem.wf = true → s.canPop 0 p.opSize.bytes →
    let v := s.mem.read (s.linear .ss (s.above 0)) p.opSize
    s.completesRegs (.popR p r) ((s.poppedRegs p.opSize.bytes).write r p.opSize v) keepFlags ∧
    s.completesRegs (.popRm p (.reg r)) ((s.poppedRegs p.opSize.bytes).write r p.opSize v) keepFlags ∧
    (m.espBase = false → s.reaches p (.mem m) p.opSize →
      ∃ t, exec (.popRm p (.mem m)) s = .next t ∧ t.regs = s.poppedRegs p.opSize.bytes ∧
        s.stores t (s.operandAddr p m) p.opSize v ∧ t.segs = s.segs ∧ t.flags = s.flags ∧
        s.sameControl t ∧ s.goesOn t (.popRm p (.mem m))) ∧
    (m.espBase = true → exec (.popRm p (.mem m)) s = .refused .popMemEspBase)

/-- R219 and R220: CWD and CDQ, encoded 99 with OperandSize 16 and 32, fill DX or EDX with the sign of AX
or EAX and change nothing else. -/
def Obligations.SignFillCompletes : Prop :=
  ∀ (s : State) (p : Prefixes),
    (Instr.cwd p).body = [0x99] ∧ (Instr.cwd p).wf = !p.op32 ∧
    (Instr.cdq p).body = [0x99] ∧ (Instr.cdq p).wf = p.op32 ∧
    s.completesWith (.cwd p) (.reg .edx) .word (((s.reg .eax .word).signExtend 32).extractLsb' 16 16)
      keepFlags ∧
    s.completesWith (.cdq p) (.reg .edx) .dword (((s.reg .eax .dword).signExtend 64).extractLsb' 32 32)
      keepFlags

/-- A push that does not fit puts the processor in shutdown and changes nothing else: every PUSH, both near
CALLs, both far CALLs with either word not fitting, and the interrupt sequence with SP = 1, 3 or 5, whatever
lies in the memory of the stack (R98, R331, R402; but for PUSH with SP = 1 this is the decision D6, log entry
17). That the room of an interrupt's frame is checked before its memory is the model's choice (log entry 24). -/
def Obligations.PushPastTopShutsDown : Prop :=
  ∀ (s : State) (p : Prefixes) (r : Reg) (sr : SReg) (rm : RM) (m : Mem) (w : Width) (imm : BitVec w.bits)
    (rel sel off : Word) (n : Byte) (ret : Word) (de : Bool),
    let down : Host.Outcome State Fault Refusal := .next { s with shutdown := true }
    (0x10000 < s.below p.opSize.bytes + p.opSize.bytes →
      exec (.pushR p r) s = down ∧ exec (.pushSreg p sr) s = down ∧
      (s.reaches p rm p.opSize → exec (.pushRm p rm) s = down)) ∧
    (0x10000 < s.below w.bytes + w.bytes → exec (.pushImm p w imm) s = down) ∧
    (s.sp = 1 → exec (.callRel p rel) s = down ∧ (s.reaches p rm .word → exec (.callRm p rm) s = down)) ∧
    (s.sp = 1 ∨ s.sp = 3 → exec (.callPtr p sel off) s = down ∧
      (s.reachesAt (m.seg p) (s.addr m).toNat 4 → exec (.callMem p m) s = down)) ∧
    (s.plain (4 * n.toNat) 4 → s.sp = 1 ∨ s.sp = 3 ∨ s.sp = 5 → s.interrupt n ret de = down)

/-- A pop that would read past stack offset 0FFFFH is Interrupt 13 with nothing changed, for every POP, RET
and IRET and for each word they pop: the choice of U11, which the spec offers (log entry 16). POP r/m of a
register is the addition G4 (log entry 25), near RET the addition G8. -/
def Obligations.PopPastTopRaises : Prop :=
  ∀ (s : State) (p : Prefixes) (r : Reg) (sr : SReg) (rm : RM) (n : Word),
    (0x10000 < s.sp.toNat + p.opSize.bytes → s.raises (.popR p r) 13 ∧ s.raises (.popSreg p sr) 13 ∧
      (rm.espBase = false → s.raises (.popRm p rm) 13)) ∧
    (s.sp = 0xFFFF → s.raises (.retNear p) 13 ∧ s.raises (.retNearImm p n) 13 ∧ s.raises (.retFar p) 13 ∧
      s.raises (.retFarImm p n) 13 ∧ s.raises (.iret p) 13) ∧
    (s.sp = 0xFFFD → s.canPop 0 2 →
      s.raises (.retFar p) 13 ∧ s.raises (.retFarImm p n) 13 ∧ s.raises (.iret p) 13) ∧
    (s.sp = 0xFFFB → s.canPop 0 2 → s.canPop 2 2 → s.raises (.iret p) 13)

/-! ## Control transfer -/

/-- Every conditional jump: to `(next_ip + sext(rel)) mod 2^16` when its condition holds on the flags, else
to the next instruction; nothing else changes (R320 to R323). -/
def Obligations.ConditionalJumpsComplete : Prop :=
  ∀ (s : State) (p : Prefixes) (t : Rel),
    let goes := fun (i : Instr) (c : Cond) =>
      let next := s.eip + BitVec.ofNat 32 i.length
      if c.holds s.flags then s.transfersTo i s.regs s.segs.cs ((next + t.value).setWidth 16 |>.setWidth 32)
      else s.completesRegs i s.regs keepFlags
    (goes (.jo p t) .o ∧ goes (.jno p t) .no ∧ goes (.jb p t) .b ∧ goes (.jc p t) .b ∧
      goes (.jnae p t) .b ∧ goes (.jae p t) .ae ∧ goes (.jnb p t) .ae ∧ goes (.jnc p t) .ae) ∧
    (goes (.je p t) .e ∧ goes (.jz p t) .e ∧ goes (.jne p t) .ne ∧ goes (.jnz p t) .ne ∧
      goes (.jbe p t) .be ∧ goes (.jna p t) .be ∧ goes (.ja p t) .a ∧ goes (.jnbe p t) .a) ∧
    (goes (.js p t) .s ∧ goes (.jns p t) .ns ∧ goes (.jp p t) .p ∧ goes (.jpe p t) .p ∧
      goes (.jnp p t) .np ∧ goes (.jpo p t) .np ∧ goes (.jl p t) .l ∧ goes (.jnge p t) .l) ∧
    (goes (.jge p t) .ge ∧ goes (.jnl p t) .ge ∧ goes (.jle p t) .le ∧ goes (.jng p t) .le ∧
      goes (.jg p t) .g ∧ goes (.jnle p t) .g)

/-- JMP relative, through r/m16, direct far and through m16:16 (R324 to R328). -/
def Obligations.JumpsComplete : Prop :=
  ∀ (s : State) (p : Prefixes) (t : Rel) (rm : RM) (m : Mem) (sel off : Word),
    let next := s.eip + BitVec.ofNat 32 (Instr.jmpRel p t).length
    let a := s.operandAddr p m
    s.transfersTo (.jmpRel p t) s.regs s.segs.cs ((next + t.value).setWidth 16 |>.setWidth 32) ∧
    (s.reaches p rm .word →
      s.transfersTo (.jmpRm p rm) s.regs s.segs.cs ((s.operand p rm .word).setWidth 32)) ∧
    s.transfersTo (.jmpPtr p sel off) s.regs sel (off.setWidth 32) ∧
    (s.reachesAt (m.seg p) (s.addr m).toNat 4 →
      s.transfersTo (.jmpMem p m) s.regs (s.mem.read (a + 2) .word) ((s.mem.read a .word).setWidth 32))

/-- CALL: the return address is pushed, for a far call the selector first and the offset below it, and
control goes to the target, which is read before the push (the decision D17); no flag changes (R329 to
R332). -/
def Obligations.CallsComplete : Prop :=
  ∀ (s : State) (p : Prefixes) (rel sel off : Word) (rm : RM) (m : Mem), s.mem.wf = true →
    s.canPush 0 2 →
    let next := fun (i : Instr) => s.eip + BitVec.ofNat 32 i.length
    let a := s.operandAddr p m
    let near := fun (i : Instr) (dest : Dword) =>
      ∃ t, exec i s = .next t ∧ t.regs = s.pushedRegs 2 ∧ t.segs = s.segs ∧ t.eip = dest ∧
        t.flags = s.flags ∧ s.sameControl t ∧ t.stored = [] ∧
        t.mem.read (s.linear .ss (s.below 2)) .word = (next i).extractLsb' 0 16 ∧
        ∀ b, b < s.linear .ss (s.below 2) ∨ s.linear .ss (s.below 2) + 2 ≤ b → t.mem.get b = s.mem.get b
    let far := fun (i : Instr) (cs : Word) (ip : Word) =>
      ∃ t, exec i s = .next t ∧ t.regs = s.pushedRegs 4 ∧ t.segs = { s.segs with cs := cs } ∧
        t.eip = ip.setWidth 32 ∧ t.flags = s.flags ∧ s.sameControl t ∧ t.stored = [] ∧
        t.mem.read (s.linear .ss (s.below 4)) .word = (next i).extractLsb' 0 16 ∧
        t.mem.read (s.linear .ss (s.below 2)) .word = s.segs.cs ∧
        ∀ b, (∀ k ∈ [2, 4], b < s.linear .ss (s.below k) ∨ s.linear .ss (s.below k) + 2 ≤ b) →
          t.mem.get b = s.mem.get b
    near (.callRel p rel) ((next (.callRel p rel) + rel.signExtend 32).setWidth 16 |>.setWidth 32) ∧
    (s.reaches p rm .word → near (.callRm p rm) ((s.operand p rm .word).setWidth 32)) ∧
    (s.canPush 2 2 → far (.callPtr p sel off) sel off) ∧
    (s.canPush 2 2 → s.reachesAt (m.seg p) (s.addr m).toNat 4 →
      far (.callMem p m) (s.mem.read (a + 2) .word) (s.mem.read a .word))

/-- RET near and far, with and without a release count: the offset, and for a far return the selector
above it, are popped and SP goes up by the count as well; no flag changes (R333 to R335, R337; the near
forms are the addition G8, log entry 25). -/
def Obligations.ReturnsComplete : Prop :=
  ∀ (s : State) (p : Prefixes) (n : Word), s.canPop 0 2 →
    let ip := (s.stackWord 0).setWidth 32
    s.transfersTo (.retNear p) (s.poppedRegs 2) s.segs.cs ip ∧
    s.transfersTo (.retNearImm p n) (s.poppedRegs (2 + n.toNat)) s.segs.cs ip ∧
    (s.canPop 2 2 →
      s.transfersTo (.retFar p) (s.poppedRegs 4) (s.stackWord 2) ip ∧
      s.transfersTo (.retFarImm p n) (s.poppedRegs (4 + n.toNat)) (s.stackWord 2) ip)

/-- A near CALL and the near RET at its target, and a far CALL and the far RET, restore SP, CS and the flags
and go on after the CALL (R338). -/
def Obligations.CallThenReturnRestores : Prop :=
  ∀ (s t : State) (p q : Prefixes) (rel sel off : Word), s.mem.wf = true → s.canPush 0 2 →
    (exec (.callRel p rel) s = .next t →
      ∃ u, exec (.retNear q) t = .next u ∧ u.regs = s.regs ∧ u.segs = s.segs ∧ u.flags = s.flags ∧
        u.eip = ((s.eip + BitVec.ofNat 32 (Instr.callRel p rel).length).setWidth 16).setWidth 32) ∧
    (s.canPush 2 2 → exec (.callPtr p sel off) s = .next t →
      ∃ u, exec (.retFar q) t = .next u ∧ u.regs = s.regs ∧ u.segs = s.segs ∧ u.flags = s.flags ∧
        u.eip = ((s.eip + BitVec.ofNat 32 (Instr.callPtr p sel off).length).setWidth 16).setWidth 32)

/-- IRET: IP, CS and FLAGS are popped in that order, SP goes up by 6, every bit of FLAGS takes its bit of
the popped word and EFLAGS[31:16] is kept (R336). That the undescribed bits of FLAGS are among them is the
model's choice (R48, U2, log entry 3). -/
def Obligations.IretCompletes : Prop :=
  ∀ (s : State) (p : Prefixes), s.canPop 0 2 → s.canPop 2 2 → s.canPop 4 2 →
    ∃ t, exec (.iret p) s = .next t ∧ t.regs = s.poppedRegs 6 ∧
      t.segs = { s.segs with cs := s.stackWord 2 } ∧ t.eip = (s.stackWord 0).setWidth 32 ∧
      t.flags.toFlags = s.stackWord 4 ∧ t.flags.upper = s.flags.upper ∧ t.mem = s.mem ∧ s.sameControl t

/-! ## Interrupts and exceptions -/

/-- R402 and R408: taking identifier `n` pushes FLAGS, CS and the return offset on SS:SP, clears IF and TF,
closes `inhibit` and goes to the far pointer at linear 4n (the decision D8, log entry 20). The pushed image
has the described flags of before, but for the six status flags of a divide error, which are free (D16). -/
def Obligations.InterruptSequenceFrame : Prop :=
  ∀ (s : State) (n : Byte) (ret : Word) (de : Bool), s.mem.wf = true → s.plain (4 * n.toNat) 4 →
    s.canPush 0 2 → s.canPush 2 2 → s.canPush 4 2 →
    ∃ t, s.interrupt n ret de = .next t ∧ t.regs = s.pushedRegs 6 ∧
      t.segs = { s.segs with cs := s.mem.read (4 * n.toNat + 2) .word } ∧
      t.eip = (s.mem.read (4 * n.toNat) .word).setWidth 32 ∧
      t.flags = { s.flags with ief := false, tf := false } ∧
      s.sameControl { t with inhibit := s.inhibit, cycles := s.cycles } ∧ t.inhibit = false ∧
      t.mem.read (s.linear .ss (s.below 6)) .word = ret ∧
      t.mem.read (s.linear .ss (s.below 4)) .word = s.segs.cs ∧
      (let image := t.mem.read (s.linear .ss (s.below 2)) .word
       image.getLsbD 8 = s.flags.tf ∧ image.getLsbD 9 = s.flags.ief ∧
       (de = false → image.getLsbD 0 = s.flags.cf ∧ image.getLsbD 2 = s.flags.pf ∧
         image.getLsbD 4 = s.flags.af ∧ image.getLsbD 6 = s.flags.zf ∧ image.getLsbD 7 = s.flags.sf ∧
         image.getLsbD 11 = s.flags.ovf)) ∧
      ∀ b, (∀ k ∈ [2, 4, 6], b < s.linear .ss (s.below k) ∨ s.linear .ss (s.below k) + 2 ≤ b) →
        t.mem.get b = s.mem.get b

/-- An interrupt taken at a boundary and the IRET of its handler restore the registers, the segment
registers, EIP and every described flag (R417). -/
def Obligations.InterruptThenIretRestores : Prop :=
  ∀ (s t : State) (n : Byte) (p : Prefixes), s.mem.wf = true → s.eip.toNat < 0x10000 →
    s.plain (4 * n.toNat) 4 → s.canPush 0 2 → s.canPush 2 2 → s.canPush 4 2 →
    s.interrupt n (s.eip.extractLsb' 0 16) false = .next t →
    ∃ u, exec (.iret p) t = .next u ∧ u.regs = s.regs ∧ u.segs = s.segs ∧ u.eip = s.eip ∧
      u.flags.cf = s.flags.cf ∧ u.flags.pf = s.flags.pf ∧ u.flags.af = s.flags.af ∧
      u.flags.zf = s.flags.zf ∧ u.flags.sf = s.flags.sf ∧ u.flags.tf = s.flags.tf ∧
      u.flags.ief = s.flags.ief ∧ u.flags.ovf = s.flags.ovf

/-! ## Flag control, I/O and the rest -/

/-- STC, CLC and CMC, encoded F9, F8 and F5, write CF alone (R360, R361, R362); CLI and STI clear and set IF
(R363, R364). That STI opens its window exactly when IF was 0 is R364's own inference, which the spec marks as
derived from its two examples; the decoder's byte for STI is the addition G2 and is not stated here. -/
def Obligations.FlagControlCompletes : Prop :=
  ∀ (s : State) (p : Prefixes),
    (Instr.stc p).body = [0xF9] ∧ (Instr.clc p).body = [0xF8] ∧ (Instr.cmc p).body = [0xF5] ∧
    s.completesRegs (.stc p) s.regs { keepFlags with cf := .put true } ∧
    s.completesRegs (.clc p) s.regs { keepFlags with cf := .put false } ∧
    s.completesRegs (.cmc p) s.regs { keepFlags with cf := .put (!s.flags.cf) } ∧
    (∃ t, exec (.cli p) s = .next t ∧ t = { s with
      flags := { s.flags with ief := false }, eip := s.eip + BitVec.ofNat 32 (Instr.cli p).length }) ∧
    (∃ t, exec (.sti p) s = .next t ∧ t = { s with
      flags := { s.flags with ief := true }, eip := s.eip + BitVec.ofNat 32 (Instr.sti p).length,
      inhibitMaskable := !s.flags.ief || s.inhibitMaskable })

/-- IN and OUT: the port is the zero-extended immediate or DX; IN puts the value the platform presents,
cut to the width, in AL, AX or EAX, OUT presents AL, AX or EAX; one entry is added to the trace. An access
past port 0FFFFH is refused (R365 to R368, R102, U12). MOV loads from and stores to memory-mapped devices as
it does memory (R103): a load takes the bytes the devices present, a store presents its bytes to them, and
neither touches memory. That each byte is an access of its own in the trace, and that the bytes stored are
remembered for the fetch as bytes of memory are (R113), are the model's choices (log entries 32 and 13). -/
def Obligations.PortAccessCompletes : Prop :=
  ∀ (s : State) (p : Prefixes) (w : Width) (imm : Byte) (r : Reg) (m : Mem),
    let reads := fun (i : Instr) (port : Word) =>
      ∃ (t : State) (v : BitVec w.bits), exec i s = .next t ∧ t.regs = s.regs.write .eax w v ∧
        (∀ x xs, s.ioIn = x :: xs → v = x.setWidth w.bits ∧ t.ioIn = xs) ∧
        t.ioTrace = s.ioTrace ++ [⟨.input, port, w, v.setWidth 32⟩] ∧ t.flags = s.flags ∧
        t.segs = s.segs ∧ s.sameMemory t ∧ s.goesOn t i ∧
        s.sameControl { t with ioIn := s.ioIn, ioTrace := s.ioTrace }
    let outputs := fun (i : Instr) (port : Word) =>
      exec i s = .next { s with
        ioTrace := s.ioTrace ++ [⟨.output, port, w, (s.reg .eax w).setWidth 32⟩],
        eip := s.eip + BitVec.ofNat 32 i.length }
    let dx := s.reg .edx .word
    reads (.inImm p w imm) (imm.setWidth 16) ∧ outputs (.outImm p w imm) (imm.setWidth 16) ∧
    (dx.toNat + w.bytes ≤ 0x10000 → reads (.inDx p w) dx ∧ outputs (.outDx p w) dx) ∧
    (0x10000 < dx.toNat + w.bytes →
      exec (.inDx p w) s = .refused .ioPast64K ∧ exec (.outDx p w) s = .refused .ioPast64K) ∧
    (let accesses := fun (dir : IoDir) (v : BitVec w.bits) =>
      (leBytes w v).zipIdx.map fun b => (⟨dir, s.operandAddr p m + b.2, b.1⟩ : DeviceAccess)
     (s.addr m).toNat + w.bytes ≤ 0x10000 → s.devices (s.operandAddr p m) w.bytes →
      (∃ (t : State) (v : BitVec w.bits), exec (.movRRm p w r (.mem m)) s = .next t ∧
        t.regs = s.regs.write r w v ∧ t.deviceTrace = s.deviceTrace ++ accesses .input v ∧
        (∀ bs rest, s.deviceIn = bs ++ rest → bs.length = w.bytes → leBytes w v = bs ∧ t.deviceIn = rest) ∧
        t.flags = s.flags ∧ t.segs = s.segs ∧ s.sameMemory t ∧ s.goesOn t (.movRRm p w r (.mem m)) ∧
        s.sameControl { t with deviceIn := s.deviceIn, deviceTrace := s.deviceTrace }) ∧
      ∃ t : State, exec (.movRmR p w (.mem m) r) s = .next t ∧
        t.deviceTrace = s.deviceTrace ++ accesses .output (s.reg r w) ∧
        (∀ b, b ∈ t.stored ↔ b ∈ s.stored ∨ (s.operandAddr p m ≤ b ∧ b < s.operandAddr p m + w.bytes)) ∧
        t.mem = s.mem ∧ t.regs = s.regs ∧ t.flags = s.flags ∧ t.segs = s.segs ∧
        s.goesOn t (.movRmR p w (.mem m) r) ∧ s.sameControl { t with deviceTrace := s.deviceTrace })

/-- LEA writes the effective address, cut or zero-extended to the operand size, with no memory access and no
limit check; with a register operand it raises Interrupt 6; NOP changes EIP alone (R370, R371, R405). The
effective address is the sum of the form's registers and displacement, modulo 2^16 with 16-bit addressing and
2^32 with 32-bit addressing (R131 to R133); its segment is the override, else SS with BP, EBP or ESP as base,
else DS (R92, R93); and the linear address is the selector times 16 plus the offset (R82). -/
def Obligations.LeaAndNopComplete : Prop :=
  ∀ (s : State) (p : Prefixes) (r b : Reg) (m : Mem) (d16 : Disp16) (d32 : Disp32) (i : Reg) (ss : Scale)
    (v16 : Word) (v : Dword) (sr : SReg) (off : Nat),
    (s.completesWith (.lea p r (.mem m)) (.reg r) p.opSize ((s.addr m).setWidth p.opSize.bits) keepFlags ∧
      s.raises (.lea p r (.reg b)) 6 ∧
      exec (.nop p) s = .next { s with eip := s.eip + BitVec.ofNat 32 (Instr.nop p).length }) ∧
    (let low := fun (x : Dword) => x.toNat % 2 ^ 16
     let disp : Word := match d16 with | .none => 0 | .d8 x => x.signExtend 16 | .d16 x => x
     let is := fun (base : Base16) (sum : Nat) =>
       (s.addr (.base16 base d16)).toNat = (sum + disp.toNat) % 2 ^ 16
     (is .bxsi (low s.regs.ebx + low s.regs.esi) ∧ is .bxdi (low s.regs.ebx + low s.regs.edi) ∧
       is .bpsi (low s.regs.ebp + low s.regs.esi) ∧ is .bpdi (low s.regs.ebp + low s.regs.edi)) ∧
     (is .si (low s.regs.esi) ∧ is .di (low s.regs.edi) ∧ is .bp (low s.regs.ebp) ∧ is .bx (low s.regs.ebx)) ∧
     (s.addr (.abs16 v16)).toNat = v16.toNat) ∧
    (let disp : Dword := match d32 with | .none => 0 | .d8 x => x.signExtend 32 | .d32 x => x
     let scale : Nat := match ss with | .x1 => 1 | .x2 => 2 | .x4 => 4 | .x8 => 8
     let base := (s.regs.get b).toNat
     let index := (s.regs.get i).toNat
     (s.addr (.base32 b d32)).toNat = (base + disp.toNat) % 2 ^ 32 ∧ (s.addr (.abs32 v)).toNat = v.toNat ∧
     (s.addr (.sib b none ss d32)).toNat = (base + disp.toNat) % 2 ^ 32 ∧
     (s.addr (.sib b (some i) ss d32)).toNat = (base + index * scale + disp.toNat) % 2 ^ 32 ∧
     (s.addr (.sibAbs none ss v)).toNat = v.toNat ∧
     (s.addr (.sibAbs (some i) ss v)).toNat = (index * scale + v.toNat) % 2 ^ 32) ∧
    (p.seg = some sr → m.seg p = sr) ∧
    (p.seg = none → m.seg p = match m with
      | .base16 base _ => if base = .bpsi ∨ base = .bpdi ∨ base = .bp then .ss else .ds
      | .base32 base _ | .sib base _ _ _ => if base = .esp ∨ base = .ebp then .ss else .ds
      | .abs16 _ | .abs32 _ | .sibAbs _ _ _ => .ds) ∧
    s.linear sr off = (s.segs.get sr).toNat * 16 + off

/-- The cycles of the worked examples of Appendix D (R474): `N` an immediate, the others as printed, with
32-bit operands and addresses. -/
def Obligations.TimingExamples : Prop :=
  ∀ (s : State) (n d : Dword) (rel : Word),
    let p : Prefixes := ⟨true, true, none⟩
    let ebx : RM := .mem (.base32 .ebx .none)
    let dada : RM := .mem (.abs32 d)
    let dadaEbx : RM := .mem (.base32 .ebx (.d32 d))
    s.cost (.add p (.regRm .dword .eax (.reg .ebx))) = 8 ∧ s.cost (.add p (.accImm .dword n)) = 10 ∧
    s.cost (.add p (.regRm .dword .eax ebx)) = 13 ∧ s.cost (.movRmR p .dword ebx .eax) = 13 ∧
    s.cost (.add p (.rmReg .dword ebx .eax)) = 15 ∧ s.cost (.add p (.regRm .dword .eax dada)) = 15 ∧
    s.cost (.add p (.regRm .dword .eax dadaEbx)) = 15 ∧ s.cost (.add p (.rmReg .dword dadaEbx .eax)) = 17 ∧
    s.cost (.callRel ⟨false, false, none⟩ rel) = 17 ∧ s.cost (.jmpRel ⟨false, false, none⟩ (.rel16 rel)) = 12 ∧
    s.cost (.lea p .eax dadaEbx) = 10 ∧ s.cost (.pushR p .eax) = 10 ∧ s.cost (.popRm p dadaEbx) = 17
end

