-- ==== Sys2Proof/Laws/Flags.lean ====
section
/-! SUPPORT. The laws of the flag computations and of the FLAGS word. -/

namespace Sys2Proof.Machine

theorem getLsbD_append_ofBool_zero {n : Nat} (x : BitVec n) (b : Bool) :
    (x ++ BitVec.ofBool b).getLsbD 0 = b := by
  rw [BitVec.getLsbD_append]; simp

theorem getLsbD_append_ofBool_succ {n : Nat} (x : BitVec n) (b : Bool) (i : Nat) :
    (x ++ BitVec.ofBool b).getLsbD (i + 1) = x.getLsbD i := by
  rw [BitVec.getLsbD_append]; simp

/-- The bits of the FLAGS word (R44). -/
theorem EFlags.toFlags_bits (f : EFlags) :
    f.toFlags.getLsbD 0 = f.cf ∧ f.toFlags.getLsbD 1 = f.bit1 ∧ f.toFlags.getLsbD 2 = f.pf ∧
    f.toFlags.getLsbD 3 = f.bit3 ∧ f.toFlags.getLsbD 4 = f.af ∧ f.toFlags.getLsbD 5 = f.bit5 ∧
    f.toFlags.getLsbD 6 = f.zf ∧ f.toFlags.getLsbD 7 = f.sf ∧ f.toFlags.getLsbD 8 = f.tf ∧
    f.toFlags.getLsbD 9 = f.ief ∧ f.toFlags.getLsbD 10 = f.bit10 ∧ f.toFlags.getLsbD 11 = f.ovf ∧
    f.toFlags.getLsbD 12 = f.bit12 ∧ f.toFlags.getLsbD 13 = f.bit13 ∧ f.toFlags.getLsbD 14 = f.bit14 ∧
    f.toFlags.getLsbD 15 = f.bit15 := by
  refine ⟨?_, ?_, ?_, ?_, ?_, ?_, ?_, ?_, ?_, ?_, ?_, ?_, ?_, ?_, ?_, ?_⟩
  · exact getLsbD_append_ofBool_zero _ _
  · iterate 1 refine (getLsbD_append_ofBool_succ _ _ _).trans ?_
    exact getLsbD_append_ofBool_zero _ _
  · iterate 2 refine (getLsbD_append_ofBool_succ _ _ _).trans ?_
    exact getLsbD_append_ofBool_zero _ _
  · iterate 3 refine (getLsbD_append_ofBool_succ _ _ _).trans ?_
    exact getLsbD_append_ofBool_zero _ _
  · iterate 4 refine (getLsbD_append_ofBool_succ _ _ _).trans ?_
    exact getLsbD_append_ofBool_zero _ _
  · iterate 5 refine (getLsbD_append_ofBool_succ _ _ _).trans ?_
    exact getLsbD_append_ofBool_zero _ _
  · iterate 6 refine (getLsbD_append_ofBool_succ _ _ _).trans ?_
    exact getLsbD_append_ofBool_zero _ _
  · iterate 7 refine (getLsbD_append_ofBool_succ _ _ _).trans ?_
    exact getLsbD_append_ofBool_zero _ _
  · iterate 8 refine (getLsbD_append_ofBool_succ _ _ _).trans ?_
    exact getLsbD_append_ofBool_zero _ _
  · iterate 9 refine (getLsbD_append_ofBool_succ _ _ _).trans ?_
    exact getLsbD_append_ofBool_zero _ _
  · iterate 10 refine (getLsbD_append_ofBool_succ _ _ _).trans ?_
    exact getLsbD_append_ofBool_zero _ _
  · iterate 11 refine (getLsbD_append_ofBool_succ _ _ _).trans ?_
    exact getLsbD_append_ofBool_zero _ _
  · iterate 12 refine (getLsbD_append_ofBool_succ _ _ _).trans ?_
    exact getLsbD_append_ofBool_zero _ _
  · iterate 13 refine (getLsbD_append_ofBool_succ _ _ _).trans ?_
    exact getLsbD_append_ofBool_zero _ _
  · iterate 14 refine (getLsbD_append_ofBool_succ _ _ _).trans ?_
    exact getLsbD_append_ofBool_zero _ _
  · iterate 15 refine (getLsbD_append_ofBool_succ _ _ _).trans ?_
    simp

/-- A word loaded into FLAGS reads back. -/
theorem EFlags.toFlags_loadFlags (f : EFlags) (v : Word) : (f.loadFlags v).toFlags = v := by
  obtain ⟨h0, h1, h2, h3, h4, h5, h6, h7, h8, h9, h10, h11, h12, h13, h14, h15⟩ :=
    EFlags.toFlags_bits (f.loadFlags v)
  apply BitVec.eq_of_getLsbD_eq
  intro i hi
  match i, hi with
  | 0, _ => exact h0
  | 1, _ => exact h1
  | 2, _ => exact h2
  | 3, _ => exact h3
  | 4, _ => exact h4
  | 5, _ => exact h5
  | 6, _ => exact h6
  | 7, _ => exact h7
  | 8, _ => exact h8
  | 9, _ => exact h9
  | 10, _ => exact h10
  | 11, _ => exact h11
  | 12, _ => exact h12
  | 13, _ => exact h13
  | 14, _ => exact h14
  | 15, _ => exact h15
  | n + 16, h => omega

/-- The described bits of the FLAGS word the interrupt sequence pushes: TF and IF always, the status flags
but at a divide error (R402, D16). -/
theorem EFlags.image_bits (f : EFlags) (de : Bool) (k : Nat) :
    (f.image de k).getLsbD 8 = f.tf ∧ (f.image de k).getLsbD 9 = f.ief ∧
    (de = false → (f.image de k).getLsbD 0 = f.cf ∧ (f.image de k).getLsbD 2 = f.pf ∧
      (f.image de k).getLsbD 4 = f.af ∧ (f.image de k).getLsbD 6 = f.zf ∧
      (f.image de k).getLsbD 7 = f.sf ∧ (f.image de k).getLsbD 11 = f.ovf) := by
  obtain ⟨h0, _, h2, _, h4, _, h6, h7, h8, h9, _, h11, _⟩ := EFlags.toFlags_bits
    (((if de then undefFlags else keepFlags).apply f k).withUndescribed (Config.undefinedWord (k + 6)))
  refine ⟨h8, h9, fun hde => ?_⟩
  subst hde
  exact ⟨h0, h2, h4, h6, h7, h11⟩

/-- The sum of R52 as a bit vector. -/
theorem addResult_eq {n : Nat} (a b : BitVec n) (c : Bool) :
    addResult a b c = a + b + BitVec.ofNat n c.toNat := by
  apply BitVec.eq_of_toNat_eq
  simp [addResult, BitVec.toNat_add]

/-- The difference of R53 as a bit vector. -/
theorem subResult_eq {n : Nat} (a b : BitVec n) (c : Bool) :
    subResult a b c = a - b - BitVec.ofNat n c.toNat := by
  have hs : ∀ x y : Int, BitVec.ofInt n (x - y) = BitVec.ofInt n x - BitVec.ofInt n y := fun x y => by
    apply BitVec.eq_of_toInt_eq
    simp [BitVec.toInt_sub]
  have h : ∀ k : Nat, BitVec.ofInt n (k : Int) = BitVec.ofNat n k := fun k => BitVec.ofInt_natCast n k
  rw [subResult, hs, hs, h, h, h, BitVec.ofNat_toNat, BitVec.ofNat_toNat, BitVec.setWidth_eq,
    BitVec.setWidth_eq]

end Sys2Proof.Machine
end

