-- ==== Sys2Proof/Laws/Memory.lean ====
section
/-!
SUPPORT. The laws of memory: what a byte reads after a write, that writes keep the canonical form, and that
an operand reads back.
-/

namespace Sys2Proof.Machine

theorem Memory.wfFrom_mono {m : Memory} {lo lo' : Nat} (h : m.wfFrom lo' = true) (hle : lo ≤ lo') :
    m.wfFrom lo = true := by
  cases m with
  | nil => rfl
  | cons c m =>
    obtain ⟨a, v⟩ := c
    simp only [Memory.wfFrom, Bool.and_eq_true, decide_eq_true_eq] at h ⊢
    exact ⟨⟨⟨by omega, h.1.1.2⟩, h.1.2⟩, h.2⟩

theorem Memory.get_of_lt {m : Memory} {lo b : Nat} (h : m.wfFrom lo = true) (hb : b < lo) :
    m.get b = 0 := by
  cases m with
  | nil => rfl
  | cons c m =>
    obtain ⟨a, v⟩ := c
    simp only [Memory.wfFrom, Bool.and_eq_true, decide_eq_true_eq] at h
    have : b < a := by omega
    simp [Memory.get, this, Nat.ne_of_lt this]

/-- A byte after one byte was written. -/
theorem Memory.get_set_from {m : Memory} : ∀ {lo : Nat}, m.wfFrom lo = true → ∀ (a : Nat) (x : Byte) (b : Nat),
    (m.set a x).get b = if b = a then x else m.get b := by
  induction m with
  | nil =>
    intro lo _ a x b
    by_cases hx : x = 0
    · simp [Memory.set, Memory.get, hx]
    · simp only [Memory.set, Memory.get, hx, if_false]
      split_ifs <;> rfl
  | cons c m ih =>
    intro lo h a x b
    obtain ⟨k, v⟩ := c
    simp only [Memory.wfFrom, Bool.and_eq_true, decide_eq_true_eq] at h
    have hm : ∀ c, c ≤ k → Memory.get m c = 0 := fun c hc => Memory.get_of_lt h.2 (by omega)
    by_cases h1 : a < k
    · by_cases hx : x = 0
      · simp only [Memory.set, h1, hx, if_true]
        by_cases hb : b = a
        · subst hb; simp [Memory.get, h1, Nat.ne_of_lt h1]
        · simp [hb]
      · simp only [Memory.set, h1, hx, if_true, if_false]
        by_cases hb : b = a
        · simp [Memory.get, hb]
        · simp only [hb, if_false]
          rw [Memory.get]
          simp only [hb, if_false]
          split_ifs with hlt
          · have : b < k := by omega
            simp [Memory.get, this, Nat.ne_of_lt this]
          · rfl
    · by_cases h2 : a = k
      · subst h2
        by_cases hx : x = 0
        · simp only [Memory.set, lt_irrefl, hx, if_false, if_true]
          by_cases hb : b = a
          · subst hb; simp [hm b (le_refl b)]
          · simp only [hb, if_false, Memory.get]
            split_ifs with hlt
            · exact hm b (by omega)
            · rfl
        · simp only [Memory.set, lt_irrefl, hx, if_false, if_true, Memory.get]
          split_ifs <;> rfl
      · simp only [Memory.set, h1, h2, if_false, Memory.get]
        rw [ih h.2]
        split_ifs with h3 h4 <;> first | rfl | omega

/-- Writing a byte keeps the canonical form. -/
theorem Memory.wfFrom_set {m : Memory} : ∀ {lo : Nat}, m.wfFrom lo = true → ∀ (a : Nat) (x : Byte),
    lo ≤ a → a < 2 ^ 32 → (m.set a x).wfFrom lo = true := by
  induction m with
  | nil =>
    intro lo _ a x hlo ha
    by_cases hx : x = 0 <;> simp_all [Memory.set, Memory.wfFrom]
  | cons c m ih =>
    intro lo h a x hlo ha
    obtain ⟨k, v⟩ := c
    simp only [Memory.wfFrom, Bool.and_eq_true, decide_eq_true_eq] at h
    by_cases h1 : a < k
    · by_cases hx : x = 0
      · simp_all [Memory.set, Memory.wfFrom]
      · simp only [Memory.set, h1, hx, if_true, if_false, Memory.wfFrom, Bool.and_eq_true, decide_eq_true_eq]
        exact ⟨⟨⟨hlo, ha⟩, by simp⟩, ⟨⟨by omega, h.1.1.2⟩, h.1.2⟩, h.2⟩
    · by_cases h2 : a = k
      · subst h2
        by_cases hx : x = 0
        · simp only [Memory.set, lt_irrefl, hx, if_false, if_true]
          exact Memory.wfFrom_mono h.2 (by omega)
        · simp only [Memory.set, lt_irrefl, hx, if_false, if_true, Memory.wfFrom, Bool.and_eq_true,
            decide_eq_true_eq]
          exact ⟨⟨⟨hlo, ha⟩, by simp⟩, h.2⟩
      · simp only [Memory.set, h1, h2, if_false, Memory.wfFrom, Bool.and_eq_true, decide_eq_true_eq]
        exact ⟨h.1, ih h.2 a x (by omega) ha⟩

theorem Memory.get_set {m : Memory} (h : m.wf = true) (a : Nat) (x : Byte) (b : Nat) :
    (m.set a x).get b = if b = a then x else m.get b :=
  Memory.get_set_from h a x b

theorem Memory.wf_set {m : Memory} (h : m.wf = true) {a : Nat} (ha : a < 2 ^ 32) (x : Byte) :
    (m.set a x).wf = true :=
  Memory.wfFrom_set h a x (Nat.zero_le a) ha

theorem Memory.wf_setBytes : ∀ (bs : List Byte) {m : Memory} {a : Nat}, m.wf = true →
    a + bs.length ≤ 2 ^ 32 → (m.setBytes a bs).wf = true
  | [], _, _, h, _ => h
  | x :: xs, m, a, h, ha => by
    simp only [List.length_cons] at ha
    exact Memory.wf_setBytes xs (Memory.wf_set h (by omega) x) (by omega)

/-- A byte after consecutive bytes were written. -/
theorem Memory.get_setBytes : ∀ (bs : List Byte) {m : Memory} {a : Nat}, m.wf = true →
    a + bs.length ≤ 2 ^ 32 → ∀ b, (m.setBytes a bs).get b =
      if a ≤ b ∧ b < a + bs.length then bs.getD (b - a) 0 else m.get b
  | [], m, a, h, _, b => by
    have : ¬(a ≤ b ∧ b < a + ([] : List Byte).length) := by simp
    simp only [Memory.setBytes, if_neg this]
  | x :: xs, m, a, h, ha, b => by
    simp only [List.length_cons] at ha ⊢
    rw [Memory.setBytes, Memory.get_setBytes xs (Memory.wf_set h (by omega) x) (by omega),
      Memory.get_set h]
    by_cases hb : b = a
    · subst hb; simp
    · by_cases h1 : a + 1 ≤ b ∧ b < a + 1 + xs.length
      · have h2 : a ≤ b ∧ b < a + (xs.length + 1) := by omega
        obtain ⟨k, hk⟩ : ∃ k, b - a = k + 1 := ⟨b - a - 1, by omega⟩
        have hk' : b - (a + 1) = k := by omega
        simp [h1, h2, hk, hk']
      · have h2 : ¬(a ≤ b ∧ b < a + (xs.length + 1)) := by omega
        simp only [if_neg h1, if_neg h2, if_neg hb]

@[simp] theorem leBytes_length (w : Width) (v : BitVec w.bits) : (leBytes w v).length = w.bytes := by
  cases w <;> rfl

theorem Width.bytes_pos (w : Width) : 0 < w.bytes := by cases w <;> decide

theorem Width.bytes_le (w : Width) : w.bytes ≤ 4 := by cases w <;> decide

theorem Width.bits_eq (w : Width) : w.bits = 8 * w.bytes := by cases w <;> rfl

theorem leBytes_getD (w : Width) (v : BitVec w.bits) (k : Nat) (hk : k < w.bytes) :
    (leBytes w v).getD k 0 = v.extractLsb' (8 * k) 8 := by
  cases w with
  | byte =>
    have : k = 0 := by simpa using hk
    subst this
    simp [leBytes]
  | word =>
    have hk' : k < 2 := hk
    have : k = 0 ∨ k = 1 := by omega
    rcases this with rfl | rfl <;> rfl
  | dword =>
    have hk' : k < 4 := hk
    have : k = 0 ∨ k = 1 ∨ k = 2 ∨ k = 3 := by omega
    rcases this with rfl | rfl | rfl | rfl <;> rfl

/-- The number of a concatenation. -/
theorem toNat_append_eq {n m : Nat} (x : BitVec n) (y : BitVec m) :
    (x ++ y).toNat = x.toNat * 2 ^ m + y.toNat := by
  rw [BitVec.toNat_append, ← Nat.shiftLeft_add_eq_or_of_lt y.isLt, Nat.shiftLeft_eq]

/-- Two bytes of a word, put together again. -/
theorem word_split (v : Word) : v.extractLsb' 8 8 ++ v.extractLsb' 0 8 = v := by
  apply BitVec.eq_of_toNat_eq
  simp only [toNat_append_eq, BitVec.extractLsb'_toNat, Nat.shiftRight_eq_div_pow]
  have := v.isLt
  omega

/-- Four bytes of a doubleword, put together again. -/
theorem dword_split (v : Dword) :
    v.extractLsb' 24 8 ++ v.extractLsb' 16 8 ++ v.extractLsb' 8 8 ++ v.extractLsb' 0 8 = v := by
  apply BitVec.eq_of_toNat_eq
  simp only [toNat_append_eq, BitVec.extractLsb'_toNat, Nat.shiftRight_eq_div_pow]
  have := v.isLt
  omega

/-- An operand is what its bytes say. -/
theorem Memory.read_of_bytes {m : Memory} {a : Nat} {w : Width} {v : BitVec w.bits}
    (h : ∀ k, k < w.bytes → m.get (a + k) = v.extractLsb' (8 * k) 8) : m.read a w = v := by
  cases w with
  | byte => simpa [Memory.read] using h 0 (by decide)
  | word =>
    have h0 := h 0 (by decide)
    have h1 := h 1 (by decide)
    simp only [Nat.add_zero, Nat.mul_zero, Nat.mul_one] at h0 h1
    simp only [Memory.read, h0, h1]
    exact word_split v
  | dword =>
    have h0 := h 0 (by decide)
    have h1 := h 1 (by decide)
    have h2 := h 2 (by decide)
    have h3 := h 3 (by decide)
    simp only [Nat.add_zero, Nat.mul_zero, Nat.mul_one] at h0 h1 h2 h3
    simp only [Memory.read, h0, h1, h2, h3]
    exact dword_split v

/-- Equal bytes make equal operands. -/
theorem Memory.read_congr {m m' : Memory} {a : Nat} {w : Width}
    (h : ∀ k, k < w.bytes → m'.get (a + k) = m.get (a + k)) : m'.read a w = m.read a w := by
  cases w with
  | byte => simpa [Memory.read] using h 0 (by decide)
  | word =>
    have h0 := h 0 (by decide)
    have h1 := h 1 (by decide)
    simp only [Nat.add_zero] at h0
    simp only [Memory.read, h0, h1]
  | dword =>
    have h0 := h 0 (by decide)
    have h1 := h 1 (by decide)
    have h2 := h 2 (by decide)
    have h3 := h 3 (by decide)
    simp only [Nat.add_zero] at h0
    simp only [Memory.read, h0, h1, h2, h3]

/-- A byte outside the bytes of an operand that was stored reads as before. -/
theorem Memory.get_store_outside {m : Memory} {a : Nat} {w : Width} {v : BitVec w.bits} {b : Nat}
    (h : m.wf = true) (ha : a + w.bytes ≤ 2 ^ 32) (hb : b < a ∨ a + w.bytes ≤ b) :
    (m.setBytes a (leBytes w v)).get b = m.get b := by
  rw [Memory.get_setBytes _ h (by simpa using ha), if_neg]
  simp only [leBytes_length]
  omega

/-- A byte of an operand that was stored. -/
theorem Memory.get_store_inside {m : Memory} {a : Nat} {w : Width} {v : BitVec w.bits} {k : Nat}
    (h : m.wf = true) (ha : a + w.bytes ≤ 2 ^ 32) (hk : k < w.bytes) :
    (m.setBytes a (leBytes w v)).get (a + k) = v.extractLsb' (8 * k) 8 := by
  have hin : a ≤ a + k ∧ a + k < a + (leBytes w v).length := by
    simp only [leBytes_length]
    omega
  have : a + k - a = k := by omega
  rw [Memory.get_setBytes _ h (by simpa using ha), if_pos hin, this, leBytes_getD w v k hk]

end Sys2Proof.Machine
end

