-- ==== Sys2Proof/Laws/Registers.lean ====
section
/-!
SUPPORT. The laws of the register file: what a name reads after a write, which bits a narrow write keeps.
-/

namespace Sys2Proof.Machine

@[simp] theorem Regs.get_set (g : Regs) (r r' : Reg) (v : Dword) :
    (g.set r v).get r' = if r' = r then v else g.get r' := by
  cases r <;> cases r' <;> rfl

@[simp] theorem Regs.set_set (g : Regs) (r : Reg) (v v' : Dword) : (g.set r v).set r v' = g.set r v' := by
  cases r <;> rfl

@[simp] theorem Regs.set_get (g : Regs) (r : Reg) : g.set r (g.get r) = g := by
  cases r <;> rfl

theorem setLow16_toNat (old : Dword) (v : Word) :
    (setLow16 old v).toNat = old.toNat / 2 ^ 16 * 2 ^ 16 + v.toNat := by
  have := old.isLt
  simp only [setLow16, toNat_append_eq, BitVec.extractLsb'_toNat, Nat.shiftRight_eq_div_pow]
  omega

theorem setLow8_toNat (old : Dword) (v : Byte) :
    (setLow8 old v).toNat = old.toNat / 2 ^ 8 * 2 ^ 8 + v.toNat := by
  have := old.isLt
  simp only [setLow8, toNat_append_eq, BitVec.extractLsb'_toNat, Nat.shiftRight_eq_div_pow]
  omega

theorem setHigh8_toNat (old : Dword) (v : Byte) :
    (setHigh8 old v).toNat = old.toNat / 2 ^ 16 * 2 ^ 16 + v.toNat * 2 ^ 8 + old.toNat % 2 ^ 8 := by
  have := old.isLt
  simp only [setHigh8, toNat_append_eq, BitVec.extractLsb'_toNat, Nat.shiftRight_eq_div_pow]
  omega

theorem setLow16_low (old : Dword) (v : Word) : (setLow16 old v).extractLsb' 0 16 = v := by
  apply BitVec.eq_of_toNat_eq
  have := v.isLt
  simp only [BitVec.extractLsb'_toNat, Nat.shiftRight_eq_div_pow, setLow16_toNat]
  omega

theorem setLow16_high (old : Dword) (v : Word) :
    (setLow16 old v).extractLsb' 16 16 = old.extractLsb' 16 16 := by
  apply BitVec.eq_of_toNat_eq
  have := v.isLt
  simp only [BitVec.extractLsb'_toNat, Nat.shiftRight_eq_div_pow, setLow16_toNat]
  omega

theorem setLow16_setLow16 (old : Dword) (v v' : Word) :
    setLow16 (setLow16 old v) v' = setLow16 old v' := by
  apply BitVec.eq_of_toNat_eq
  have := v.isLt
  simp only [setLow16_toNat]
  omega

theorem setLow16_self (old : Dword) : setLow16 old (old.extractLsb' 0 16) = old := by
  apply BitVec.eq_of_toNat_eq
  simp only [setLow16_toNat, BitVec.extractLsb'_toNat, Nat.shiftRight_eq_div_pow]
  omega

theorem setLow8_low (old : Dword) (v : Byte) : (setLow8 old v).extractLsb' 0 8 = v := by
  apply BitVec.eq_of_toNat_eq
  have := v.isLt
  simp only [BitVec.extractLsb'_toNat, Nat.shiftRight_eq_div_pow, setLow8_toNat]
  omega

theorem setLow8_second (old : Dword) (v : Byte) :
    (setLow8 old v).extractLsb' 8 8 = old.extractLsb' 8 8 := by
  apply BitVec.eq_of_toNat_eq
  have := v.isLt
  simp only [BitVec.extractLsb'_toNat, Nat.shiftRight_eq_div_pow, setLow8_toNat]
  omega

theorem setLow8_high (old : Dword) (v : Byte) :
    (setLow8 old v).extractLsb' 16 16 = old.extractLsb' 16 16 := by
  apply BitVec.eq_of_toNat_eq
  have := v.isLt
  simp only [BitVec.extractLsb'_toNat, Nat.shiftRight_eq_div_pow, setLow8_toNat]
  omega

theorem setHigh8_second (old : Dword) (v : Byte) : (setHigh8 old v).extractLsb' 8 8 = v := by
  apply BitVec.eq_of_toNat_eq
  have := v.isLt
  simp only [BitVec.extractLsb'_toNat, Nat.shiftRight_eq_div_pow, setHigh8_toNat]
  omega

theorem setHigh8_low (old : Dword) (v : Byte) :
    (setHigh8 old v).extractLsb' 0 8 = old.extractLsb' 0 8 := by
  apply BitVec.eq_of_toNat_eq
  have := v.isLt
  simp only [BitVec.extractLsb'_toNat, Nat.shiftRight_eq_div_pow, setHigh8_toNat]
  omega

theorem setHigh8_high (old : Dword) (v : Byte) :
    (setHigh8 old v).extractLsb' 16 16 = old.extractLsb' 16 16 := by
  apply BitVec.eq_of_toNat_eq
  have := v.isLt
  simp only [BitVec.extractLsb'_toNat, Nat.shiftRight_eq_div_pow, setHigh8_toNat]
  omega

/-- The 32-bit register a word write changes. -/
@[simp] theorem Regs.get_write_word (g : Regs) (r r' : Reg) (v : Word) :
    (g.write r .word v).get r' = if r' = r then setLow16 (g.get r) v else g.get r' := by
  simp only [Regs.write, Regs.get_set]

@[simp] theorem Regs.write_word_write_word (g : Regs) (r : Reg) (v v' : Word) :
    (g.write r .word v).write r .word v' = g.write r .word v' := by
  simp only [Regs.write, Regs.get_set, if_true, Regs.set_set, setLow16_setLow16]

/-- Writing a word register its own value changes nothing. -/
@[simp] theorem Regs.write_word_read (g : Regs) (r : Reg) : g.write r .word (g.read r .word) = g := by
  simp only [Regs.write, Regs.read]
  rw [setLow16_self, Regs.set_get]

/-- The word register just written. -/
@[simp] theorem Regs.read_write_word (g : Regs) (r : Reg) (v : Word) : (g.write r .word v).read r .word = v := by
  simp only [Regs.read, Regs.get_write_word, if_true]
  exact setLow16_low _ _

end Sys2Proof.Machine
end

