-- ==== Sys2Proof/Laws/State.lean ====
section
/-! SUPPORT. What each update of the state leaves in each field, so that no proof unfolds a record update. -/

namespace Sys2Proof.Machine

@[simp] theorem State.setReg_regs (s : State) (r : Reg) (w : Width) (v : BitVec w.bits) : (s.setReg r w v).regs = s.regs.write r w v := rfl
@[simp] theorem State.setReg_segs (s : State) (r : Reg) (w : Width) (v : BitVec w.bits) : (s.setReg r w v).segs = s.segs := rfl
@[simp] theorem State.setReg_eip (s : State) (r : Reg) (w : Width) (v : BitVec w.bits) : (s.setReg r w v).eip = s.eip := rfl
@[simp] theorem State.setReg_flags (s : State) (r : Reg) (w : Width) (v : BitVec w.bits) : (s.setReg r w v).flags = s.flags := rfl
@[simp] theorem State.setReg_inhibit (s : State) (r : Reg) (w : Width) (v : BitVec w.bits) : (s.setReg r w v).inhibit = s.inhibit := rfl
@[simp] theorem State.setReg_inhibitMaskable (s : State) (r : Reg) (w : Width) (v : BitVec w.bits) : (s.setReg r w v).inhibitMaskable = s.inhibitMaskable := rfl
@[simp] theorem State.setReg_shutdown (s : State) (r : Reg) (w : Width) (v : BitVec w.bits) : (s.setReg r w v).shutdown = s.shutdown := rfl
@[simp] theorem State.setReg_intr (s : State) (r : Reg) (w : Width) (v : BitVec w.bits) : (s.setReg r w v).intr = s.intr := rfl
@[simp] theorem State.setReg_nmi (s : State) (r : Reg) (w : Width) (v : BitVec w.bits) : (s.setReg r w v).nmi = s.nmi := rfl
@[simp] theorem State.setReg_resetSignal (s : State) (r : Reg) (w : Width) (v : BitVec w.bits) : (s.setReg r w v).resetSignal = s.resetSignal := rfl
@[simp] theorem State.setReg_mem (s : State) (r : Reg) (w : Width) (v : BitVec w.bits) : (s.setReg r w v).mem = s.mem := rfl
@[simp] theorem State.setReg_present (s : State) (r : Reg) (w : Width) (v : BitVec w.bits) : (s.setReg r w v).present = s.present := rfl
@[simp] theorem State.setReg_mmio (s : State) (r : Reg) (w : Width) (v : BitVec w.bits) : (s.setReg r w v).mmio = s.mmio := rfl
@[simp] theorem State.setReg_deviceIn (s : State) (r : Reg) (w : Width) (v : BitVec w.bits) : (s.setReg r w v).deviceIn = s.deviceIn := rfl
@[simp] theorem State.setReg_deviceTrace (s : State) (r : Reg) (w : Width) (v : BitVec w.bits) : (s.setReg r w v).deviceTrace = s.deviceTrace := rfl
@[simp] theorem State.setReg_ioIn (s : State) (r : Reg) (w : Width) (v : BitVec w.bits) : (s.setReg r w v).ioIn = s.ioIn := rfl
@[simp] theorem State.setReg_ioTrace (s : State) (r : Reg) (w : Width) (v : BitVec w.bits) : (s.setReg r w v).ioTrace = s.ioTrace := rfl
@[simp] theorem State.setReg_cycles (s : State) (r : Reg) (w : Width) (v : BitVec w.bits) : (s.setReg r w v).cycles = s.cycles := rfl
@[simp] theorem State.setReg_stored (s : State) (r : Reg) (w : Width) (v : BitVec w.bits) : (s.setReg r w v).stored = s.stored := rfl
@[simp] theorem State.setReg_draws (s : State) (r : Reg) (w : Width) (v : BitVec w.bits) : (s.setReg r w v).draws = s.draws := rfl

@[simp] theorem State.setSreg_regs (s : State) (r : SReg) (v : Word) : (s.setSreg r v).regs = s.regs := rfl
@[simp] theorem State.setSreg_segs (s : State) (r : SReg) (v : Word) : (s.setSreg r v).segs = s.segs.set r v := rfl
@[simp] theorem State.setSreg_eip (s : State) (r : SReg) (v : Word) : (s.setSreg r v).eip = s.eip := rfl
@[simp] theorem State.setSreg_flags (s : State) (r : SReg) (v : Word) : (s.setSreg r v).flags = s.flags := rfl
@[simp] theorem State.setSreg_inhibit (s : State) (r : SReg) (v : Word) : (s.setSreg r v).inhibit = s.inhibit := rfl
@[simp] theorem State.setSreg_inhibitMaskable (s : State) (r : SReg) (v : Word) : (s.setSreg r v).inhibitMaskable = s.inhibitMaskable := rfl
@[simp] theorem State.setSreg_shutdown (s : State) (r : SReg) (v : Word) : (s.setSreg r v).shutdown = s.shutdown := rfl
@[simp] theorem State.setSreg_intr (s : State) (r : SReg) (v : Word) : (s.setSreg r v).intr = s.intr := rfl
@[simp] theorem State.setSreg_nmi (s : State) (r : SReg) (v : Word) : (s.setSreg r v).nmi = s.nmi := rfl
@[simp] theorem State.setSreg_resetSignal (s : State) (r : SReg) (v : Word) : (s.setSreg r v).resetSignal = s.resetSignal := rfl
@[simp] theorem State.setSreg_mem (s : State) (r : SReg) (v : Word) : (s.setSreg r v).mem = s.mem := rfl
@[simp] theorem State.setSreg_present (s : State) (r : SReg) (v : Word) : (s.setSreg r v).present = s.present := rfl
@[simp] theorem State.setSreg_mmio (s : State) (r : SReg) (v : Word) : (s.setSreg r v).mmio = s.mmio := rfl
@[simp] theorem State.setSreg_deviceIn (s : State) (r : SReg) (v : Word) : (s.setSreg r v).deviceIn = s.deviceIn := rfl
@[simp] theorem State.setSreg_deviceTrace (s : State) (r : SReg) (v : Word) : (s.setSreg r v).deviceTrace = s.deviceTrace := rfl
@[simp] theorem State.setSreg_ioIn (s : State) (r : SReg) (v : Word) : (s.setSreg r v).ioIn = s.ioIn := rfl
@[simp] theorem State.setSreg_ioTrace (s : State) (r : SReg) (v : Word) : (s.setSreg r v).ioTrace = s.ioTrace := rfl
@[simp] theorem State.setSreg_cycles (s : State) (r : SReg) (v : Word) : (s.setSreg r v).cycles = s.cycles := rfl
@[simp] theorem State.setSreg_stored (s : State) (r : SReg) (v : Word) : (s.setSreg r v).stored = s.stored := rfl
@[simp] theorem State.setSreg_draws (s : State) (r : SReg) (v : Word) : (s.setSreg r v).draws = s.draws := rfl

@[simp] theorem State.setSp_regs (s : State) (v : Word) : (s.setSp v).regs = s.regs.write .esp .word v := rfl
@[simp] theorem State.setSp_segs (s : State) (v : Word) : (s.setSp v).segs = s.segs := rfl
@[simp] theorem State.setSp_eip (s : State) (v : Word) : (s.setSp v).eip = s.eip := rfl
@[simp] theorem State.setSp_flags (s : State) (v : Word) : (s.setSp v).flags = s.flags := rfl
@[simp] theorem State.setSp_inhibit (s : State) (v : Word) : (s.setSp v).inhibit = s.inhibit := rfl
@[simp] theorem State.setSp_inhibitMaskable (s : State) (v : Word) : (s.setSp v).inhibitMaskable = s.inhibitMaskable := rfl
@[simp] theorem State.setSp_shutdown (s : State) (v : Word) : (s.setSp v).shutdown = s.shutdown := rfl
@[simp] theorem State.setSp_intr (s : State) (v : Word) : (s.setSp v).intr = s.intr := rfl
@[simp] theorem State.setSp_nmi (s : State) (v : Word) : (s.setSp v).nmi = s.nmi := rfl
@[simp] theorem State.setSp_resetSignal (s : State) (v : Word) : (s.setSp v).resetSignal = s.resetSignal := rfl
@[simp] theorem State.setSp_mem (s : State) (v : Word) : (s.setSp v).mem = s.mem := rfl
@[simp] theorem State.setSp_present (s : State) (v : Word) : (s.setSp v).present = s.present := rfl
@[simp] theorem State.setSp_mmio (s : State) (v : Word) : (s.setSp v).mmio = s.mmio := rfl
@[simp] theorem State.setSp_deviceIn (s : State) (v : Word) : (s.setSp v).deviceIn = s.deviceIn := rfl
@[simp] theorem State.setSp_deviceTrace (s : State) (v : Word) : (s.setSp v).deviceTrace = s.deviceTrace := rfl
@[simp] theorem State.setSp_ioIn (s : State) (v : Word) : (s.setSp v).ioIn = s.ioIn := rfl
@[simp] theorem State.setSp_ioTrace (s : State) (v : Word) : (s.setSp v).ioTrace = s.ioTrace := rfl
@[simp] theorem State.setSp_cycles (s : State) (v : Word) : (s.setSp v).cycles = s.cycles := rfl
@[simp] theorem State.setSp_stored (s : State) (v : Word) : (s.setSp v).stored = s.stored := rfl
@[simp] theorem State.setSp_draws (s : State) (v : Word) : (s.setSp v).draws = s.draws := rfl

@[simp] theorem State.setEip_regs (s : State) (v : Dword) : (s.setEip v).regs = s.regs := rfl
@[simp] theorem State.setEip_segs (s : State) (v : Dword) : (s.setEip v).segs = s.segs := rfl
@[simp] theorem State.setEip_eip (s : State) (v : Dword) : (s.setEip v).eip = v := rfl
@[simp] theorem State.setEip_flags (s : State) (v : Dword) : (s.setEip v).flags = s.flags := rfl
@[simp] theorem State.setEip_inhibit (s : State) (v : Dword) : (s.setEip v).inhibit = s.inhibit := rfl
@[simp] theorem State.setEip_inhibitMaskable (s : State) (v : Dword) : (s.setEip v).inhibitMaskable = s.inhibitMaskable := rfl
@[simp] theorem State.setEip_shutdown (s : State) (v : Dword) : (s.setEip v).shutdown = s.shutdown := rfl
@[simp] theorem State.setEip_intr (s : State) (v : Dword) : (s.setEip v).intr = s.intr := rfl
@[simp] theorem State.setEip_nmi (s : State) (v : Dword) : (s.setEip v).nmi = s.nmi := rfl
@[simp] theorem State.setEip_resetSignal (s : State) (v : Dword) : (s.setEip v).resetSignal = s.resetSignal := rfl
@[simp] theorem State.setEip_mem (s : State) (v : Dword) : (s.setEip v).mem = s.mem := rfl
@[simp] theorem State.setEip_present (s : State) (v : Dword) : (s.setEip v).present = s.present := rfl
@[simp] theorem State.setEip_mmio (s : State) (v : Dword) : (s.setEip v).mmio = s.mmio := rfl
@[simp] theorem State.setEip_deviceIn (s : State) (v : Dword) : (s.setEip v).deviceIn = s.deviceIn := rfl
@[simp] theorem State.setEip_deviceTrace (s : State) (v : Dword) : (s.setEip v).deviceTrace = s.deviceTrace := rfl
@[simp] theorem State.setEip_ioIn (s : State) (v : Dword) : (s.setEip v).ioIn = s.ioIn := rfl
@[simp] theorem State.setEip_ioTrace (s : State) (v : Dword) : (s.setEip v).ioTrace = s.ioTrace := rfl
@[simp] theorem State.setEip_cycles (s : State) (v : Dword) : (s.setEip v).cycles = s.cycles := rfl
@[simp] theorem State.setEip_stored (s : State) (v : Dword) : (s.setEip v).stored = s.stored := rfl
@[simp] theorem State.setEip_draws (s : State) (v : Dword) : (s.setEip v).draws = s.draws := rfl

@[simp] theorem State.writeStatus_regs (s : State) (u : StatusWrite) : (s.writeStatus u).regs = s.regs := rfl
@[simp] theorem State.writeStatus_segs (s : State) (u : StatusWrite) : (s.writeStatus u).segs = s.segs := rfl
@[simp] theorem State.writeStatus_eip (s : State) (u : StatusWrite) : (s.writeStatus u).eip = s.eip := rfl
@[simp] theorem State.writeStatus_flags (s : State) (u : StatusWrite) : (s.writeStatus u).flags = u.apply s.flags s.draws := rfl
@[simp] theorem State.writeStatus_inhibit (s : State) (u : StatusWrite) : (s.writeStatus u).inhibit = s.inhibit := rfl
@[simp] theorem State.writeStatus_inhibitMaskable (s : State) (u : StatusWrite) : (s.writeStatus u).inhibitMaskable = s.inhibitMaskable := rfl
@[simp] theorem State.writeStatus_shutdown (s : State) (u : StatusWrite) : (s.writeStatus u).shutdown = s.shutdown := rfl
@[simp] theorem State.writeStatus_intr (s : State) (u : StatusWrite) : (s.writeStatus u).intr = s.intr := rfl
@[simp] theorem State.writeStatus_nmi (s : State) (u : StatusWrite) : (s.writeStatus u).nmi = s.nmi := rfl
@[simp] theorem State.writeStatus_resetSignal (s : State) (u : StatusWrite) : (s.writeStatus u).resetSignal = s.resetSignal := rfl
@[simp] theorem State.writeStatus_mem (s : State) (u : StatusWrite) : (s.writeStatus u).mem = s.mem := rfl
@[simp] theorem State.writeStatus_present (s : State) (u : StatusWrite) : (s.writeStatus u).present = s.present := rfl
@[simp] theorem State.writeStatus_mmio (s : State) (u : StatusWrite) : (s.writeStatus u).mmio = s.mmio := rfl
@[simp] theorem State.writeStatus_deviceIn (s : State) (u : StatusWrite) : (s.writeStatus u).deviceIn = s.deviceIn := rfl
@[simp] theorem State.writeStatus_deviceTrace (s : State) (u : StatusWrite) : (s.writeStatus u).deviceTrace = s.deviceTrace := rfl
@[simp] theorem State.writeStatus_ioIn (s : State) (u : StatusWrite) : (s.writeStatus u).ioIn = s.ioIn := rfl
@[simp] theorem State.writeStatus_ioTrace (s : State) (u : StatusWrite) : (s.writeStatus u).ioTrace = s.ioTrace := rfl
@[simp] theorem State.writeStatus_cycles (s : State) (u : StatusWrite) : (s.writeStatus u).cycles = s.cycles := rfl
@[simp] theorem State.writeStatus_stored (s : State) (u : StatusWrite) : (s.writeStatus u).stored = s.stored := rfl
@[simp] theorem State.writeStatus_draws (s : State) (u : StatusWrite) : (s.writeStatus u).draws = if u.drawsAny then s.draws + 6 else s.draws := rfl

@[simp] theorem State.setIf_regs (s : State) (b : Bool) : (s.setIf b).regs = s.regs := rfl
@[simp] theorem State.setIf_segs (s : State) (b : Bool) : (s.setIf b).segs = s.segs := rfl
@[simp] theorem State.setIf_eip (s : State) (b : Bool) : (s.setIf b).eip = s.eip := rfl
@[simp] theorem State.setIf_flags (s : State) (b : Bool) : (s.setIf b).flags = { s.flags with ief := b } := rfl
@[simp] theorem State.setIf_inhibit (s : State) (b : Bool) : (s.setIf b).inhibit = s.inhibit := rfl
@[simp] theorem State.setIf_inhibitMaskable (s : State) (b : Bool) : (s.setIf b).inhibitMaskable = s.inhibitMaskable := rfl
@[simp] theorem State.setIf_shutdown (s : State) (b : Bool) : (s.setIf b).shutdown = s.shutdown := rfl
@[simp] theorem State.setIf_intr (s : State) (b : Bool) : (s.setIf b).intr = s.intr := rfl
@[simp] theorem State.setIf_nmi (s : State) (b : Bool) : (s.setIf b).nmi = s.nmi := rfl
@[simp] theorem State.setIf_resetSignal (s : State) (b : Bool) : (s.setIf b).resetSignal = s.resetSignal := rfl
@[simp] theorem State.setIf_mem (s : State) (b : Bool) : (s.setIf b).mem = s.mem := rfl
@[simp] theorem State.setIf_present (s : State) (b : Bool) : (s.setIf b).present = s.present := rfl
@[simp] theorem State.setIf_mmio (s : State) (b : Bool) : (s.setIf b).mmio = s.mmio := rfl
@[simp] theorem State.setIf_deviceIn (s : State) (b : Bool) : (s.setIf b).deviceIn = s.deviceIn := rfl
@[simp] theorem State.setIf_deviceTrace (s : State) (b : Bool) : (s.setIf b).deviceTrace = s.deviceTrace := rfl
@[simp] theorem State.setIf_ioIn (s : State) (b : Bool) : (s.setIf b).ioIn = s.ioIn := rfl
@[simp] theorem State.setIf_ioTrace (s : State) (b : Bool) : (s.setIf b).ioTrace = s.ioTrace := rfl
@[simp] theorem State.setIf_cycles (s : State) (b : Bool) : (s.setIf b).cycles = s.cycles := rfl
@[simp] theorem State.setIf_stored (s : State) (b : Bool) : (s.setIf b).stored = s.stored := rfl
@[simp] theorem State.setIf_draws (s : State) (b : Bool) : (s.setIf b).draws = s.draws := rfl

@[simp] theorem State.openInhibit_regs (s : State) : (s.openInhibit).regs = s.regs := rfl
@[simp] theorem State.openInhibit_segs (s : State) : (s.openInhibit).segs = s.segs := rfl
@[simp] theorem State.openInhibit_eip (s : State) : (s.openInhibit).eip = s.eip := rfl
@[simp] theorem State.openInhibit_flags (s : State) : (s.openInhibit).flags = s.flags := rfl
@[simp] theorem State.openInhibit_inhibit (s : State) : (s.openInhibit).inhibit = true := rfl
@[simp] theorem State.openInhibit_inhibitMaskable (s : State) : (s.openInhibit).inhibitMaskable = s.inhibitMaskable := rfl
@[simp] theorem State.openInhibit_shutdown (s : State) : (s.openInhibit).shutdown = s.shutdown := rfl
@[simp] theorem State.openInhibit_intr (s : State) : (s.openInhibit).intr = s.intr := rfl
@[simp] theorem State.openInhibit_nmi (s : State) : (s.openInhibit).nmi = s.nmi := rfl
@[simp] theorem State.openInhibit_resetSignal (s : State) : (s.openInhibit).resetSignal = s.resetSignal := rfl
@[simp] theorem State.openInhibit_mem (s : State) : (s.openInhibit).mem = s.mem := rfl
@[simp] theorem State.openInhibit_present (s : State) : (s.openInhibit).present = s.present := rfl
@[simp] theorem State.openInhibit_mmio (s : State) : (s.openInhibit).mmio = s.mmio := rfl
@[simp] theorem State.openInhibit_deviceIn (s : State) : (s.openInhibit).deviceIn = s.deviceIn := rfl
@[simp] theorem State.openInhibit_deviceTrace (s : State) : (s.openInhibit).deviceTrace = s.deviceTrace := rfl
@[simp] theorem State.openInhibit_ioIn (s : State) : (s.openInhibit).ioIn = s.ioIn := rfl
@[simp] theorem State.openInhibit_ioTrace (s : State) : (s.openInhibit).ioTrace = s.ioTrace := rfl
@[simp] theorem State.openInhibit_cycles (s : State) : (s.openInhibit).cycles = s.cycles := rfl
@[simp] theorem State.openInhibit_stored (s : State) : (s.openInhibit).stored = s.stored := rfl
@[simp] theorem State.openInhibit_draws (s : State) : (s.openInhibit).draws = s.draws := rfl

@[simp] theorem State.drew_regs (s : State) (n : Nat) : (s.drew n).regs = s.regs := rfl
@[simp] theorem State.drew_segs (s : State) (n : Nat) : (s.drew n).segs = s.segs := rfl
@[simp] theorem State.drew_eip (s : State) (n : Nat) : (s.drew n).eip = s.eip := rfl
@[simp] theorem State.drew_flags (s : State) (n : Nat) : (s.drew n).flags = s.flags := rfl
@[simp] theorem State.drew_inhibit (s : State) (n : Nat) : (s.drew n).inhibit = s.inhibit := rfl
@[simp] theorem State.drew_inhibitMaskable (s : State) (n : Nat) : (s.drew n).inhibitMaskable = s.inhibitMaskable := rfl
@[simp] theorem State.drew_shutdown (s : State) (n : Nat) : (s.drew n).shutdown = s.shutdown := rfl
@[simp] theorem State.drew_intr (s : State) (n : Nat) : (s.drew n).intr = s.intr := rfl
@[simp] theorem State.drew_nmi (s : State) (n : Nat) : (s.drew n).nmi = s.nmi := rfl
@[simp] theorem State.drew_resetSignal (s : State) (n : Nat) : (s.drew n).resetSignal = s.resetSignal := rfl
@[simp] theorem State.drew_mem (s : State) (n : Nat) : (s.drew n).mem = s.mem := rfl
@[simp] theorem State.drew_present (s : State) (n : Nat) : (s.drew n).present = s.present := rfl
@[simp] theorem State.drew_mmio (s : State) (n : Nat) : (s.drew n).mmio = s.mmio := rfl
@[simp] theorem State.drew_deviceIn (s : State) (n : Nat) : (s.drew n).deviceIn = s.deviceIn := rfl
@[simp] theorem State.drew_deviceTrace (s : State) (n : Nat) : (s.drew n).deviceTrace = s.deviceTrace := rfl
@[simp] theorem State.drew_ioIn (s : State) (n : Nat) : (s.drew n).ioIn = s.ioIn := rfl
@[simp] theorem State.drew_ioTrace (s : State) (n : Nat) : (s.drew n).ioTrace = s.ioTrace := rfl
@[simp] theorem State.drew_cycles (s : State) (n : Nat) : (s.drew n).cycles = s.cycles := rfl
@[simp] theorem State.drew_stored (s : State) (n : Nat) : (s.drew n).stored = s.stored := rfl
@[simp] theorem State.drew_draws (s : State) (n : Nat) : (s.drew n).draws = s.draws + n := rfl

@[simp] theorem State.jump_regs (s : State) (v : Dword) : (s.jump v).regs = s.regs := rfl
@[simp] theorem State.jump_segs (s : State) (v : Dword) : (s.jump v).segs = s.segs := rfl
@[simp] theorem State.jump_eip (s : State) (v : Dword) : (s.jump v).eip = v := rfl
@[simp] theorem State.jump_flags (s : State) (v : Dword) : (s.jump v).flags = s.flags := rfl
@[simp] theorem State.jump_inhibit (s : State) (v : Dword) : (s.jump v).inhibit = s.inhibit := rfl
@[simp] theorem State.jump_inhibitMaskable (s : State) (v : Dword) : (s.jump v).inhibitMaskable = s.inhibitMaskable := rfl
@[simp] theorem State.jump_shutdown (s : State) (v : Dword) : (s.jump v).shutdown = s.shutdown := rfl
@[simp] theorem State.jump_intr (s : State) (v : Dword) : (s.jump v).intr = s.intr := rfl
@[simp] theorem State.jump_nmi (s : State) (v : Dword) : (s.jump v).nmi = s.nmi := rfl
@[simp] theorem State.jump_resetSignal (s : State) (v : Dword) : (s.jump v).resetSignal = s.resetSignal := rfl
@[simp] theorem State.jump_mem (s : State) (v : Dword) : (s.jump v).mem = s.mem := rfl
@[simp] theorem State.jump_present (s : State) (v : Dword) : (s.jump v).present = s.present := rfl
@[simp] theorem State.jump_mmio (s : State) (v : Dword) : (s.jump v).mmio = s.mmio := rfl
@[simp] theorem State.jump_deviceIn (s : State) (v : Dword) : (s.jump v).deviceIn = s.deviceIn := rfl
@[simp] theorem State.jump_deviceTrace (s : State) (v : Dword) : (s.jump v).deviceTrace = s.deviceTrace := rfl
@[simp] theorem State.jump_ioIn (s : State) (v : Dword) : (s.jump v).ioIn = s.ioIn := rfl
@[simp] theorem State.jump_ioTrace (s : State) (v : Dword) : (s.jump v).ioTrace = s.ioTrace := rfl
@[simp] theorem State.jump_cycles (s : State) (v : Dword) : (s.jump v).cycles = s.cycles := rfl
@[simp] theorem State.jump_stored (s : State) (v : Dword) : (s.jump v).stored = [] := rfl
@[simp] theorem State.jump_draws (s : State) (v : Dword) : (s.jump v).draws = s.draws := rfl

@[simp] theorem State.storeBytes_regs (s : State) (a : Nat) (bs : List Byte) : (s.storeBytes a bs).regs = s.regs := rfl
@[simp] theorem State.storeBytes_segs (s : State) (a : Nat) (bs : List Byte) : (s.storeBytes a bs).segs = s.segs := rfl
@[simp] theorem State.storeBytes_eip (s : State) (a : Nat) (bs : List Byte) : (s.storeBytes a bs).eip = s.eip := rfl
@[simp] theorem State.storeBytes_flags (s : State) (a : Nat) (bs : List Byte) : (s.storeBytes a bs).flags = s.flags := rfl
@[simp] theorem State.storeBytes_inhibit (s : State) (a : Nat) (bs : List Byte) : (s.storeBytes a bs).inhibit = s.inhibit := rfl
@[simp] theorem State.storeBytes_inhibitMaskable (s : State) (a : Nat) (bs : List Byte) : (s.storeBytes a bs).inhibitMaskable = s.inhibitMaskable := rfl
@[simp] theorem State.storeBytes_shutdown (s : State) (a : Nat) (bs : List Byte) : (s.storeBytes a bs).shutdown = s.shutdown := rfl
@[simp] theorem State.storeBytes_intr (s : State) (a : Nat) (bs : List Byte) : (s.storeBytes a bs).intr = s.intr := rfl
@[simp] theorem State.storeBytes_nmi (s : State) (a : Nat) (bs : List Byte) : (s.storeBytes a bs).nmi = s.nmi := rfl
@[simp] theorem State.storeBytes_resetSignal (s : State) (a : Nat) (bs : List Byte) : (s.storeBytes a bs).resetSignal = s.resetSignal := rfl
@[simp] theorem State.storeBytes_mem (s : State) (a : Nat) (bs : List Byte) : (s.storeBytes a bs).mem = s.mem.setBytes a bs := rfl
@[simp] theorem State.storeBytes_present (s : State) (a : Nat) (bs : List Byte) : (s.storeBytes a bs).present = s.present := rfl
@[simp] theorem State.storeBytes_mmio (s : State) (a : Nat) (bs : List Byte) : (s.storeBytes a bs).mmio = s.mmio := rfl
@[simp] theorem State.storeBytes_deviceIn (s : State) (a : Nat) (bs : List Byte) : (s.storeBytes a bs).deviceIn = s.deviceIn := rfl
@[simp] theorem State.storeBytes_deviceTrace (s : State) (a : Nat) (bs : List Byte) : (s.storeBytes a bs).deviceTrace = s.deviceTrace := rfl
@[simp] theorem State.storeBytes_ioIn (s : State) (a : Nat) (bs : List Byte) : (s.storeBytes a bs).ioIn = s.ioIn := rfl
@[simp] theorem State.storeBytes_ioTrace (s : State) (a : Nat) (bs : List Byte) : (s.storeBytes a bs).ioTrace = s.ioTrace := rfl
@[simp] theorem State.storeBytes_cycles (s : State) (a : Nat) (bs : List Byte) : (s.storeBytes a bs).cycles = s.cycles := rfl
@[simp] theorem State.storeBytes_stored (s : State) (a : Nat) (bs : List Byte) : (s.storeBytes a bs).stored = ((List.range bs.length).map (a + ·)).reverse ++ s.stored := rfl
@[simp] theorem State.storeBytes_draws (s : State) (a : Nat) (bs : List Byte) : (s.storeBytes a bs).draws = s.draws := rfl

@[simp] theorem State.logDevice_regs (s : State) (d : IoDir) (a : Nat) (v : Byte) : (s.logDevice d a v).regs = s.regs := rfl
@[simp] theorem State.logDevice_segs (s : State) (d : IoDir) (a : Nat) (v : Byte) : (s.logDevice d a v).segs = s.segs := rfl
@[simp] theorem State.logDevice_eip (s : State) (d : IoDir) (a : Nat) (v : Byte) : (s.logDevice d a v).eip = s.eip := rfl
@[simp] theorem State.logDevice_flags (s : State) (d : IoDir) (a : Nat) (v : Byte) : (s.logDevice d a v).flags = s.flags := rfl
@[simp] theorem State.logDevice_inhibit (s : State) (d : IoDir) (a : Nat) (v : Byte) : (s.logDevice d a v).inhibit = s.inhibit := rfl
@[simp] theorem State.logDevice_inhibitMaskable (s : State) (d : IoDir) (a : Nat) (v : Byte) : (s.logDevice d a v).inhibitMaskable = s.inhibitMaskable := rfl
@[simp] theorem State.logDevice_shutdown (s : State) (d : IoDir) (a : Nat) (v : Byte) : (s.logDevice d a v).shutdown = s.shutdown := rfl
@[simp] theorem State.logDevice_intr (s : State) (d : IoDir) (a : Nat) (v : Byte) : (s.logDevice d a v).intr = s.intr := rfl
@[simp] theorem State.logDevice_nmi (s : State) (d : IoDir) (a : Nat) (v : Byte) : (s.logDevice d a v).nmi = s.nmi := rfl
@[simp] theorem State.logDevice_resetSignal (s : State) (d : IoDir) (a : Nat) (v : Byte) : (s.logDevice d a v).resetSignal = s.resetSignal := rfl
@[simp] theorem State.logDevice_mem (s : State) (d : IoDir) (a : Nat) (v : Byte) : (s.logDevice d a v).mem = s.mem := rfl
@[simp] theorem State.logDevice_present (s : State) (d : IoDir) (a : Nat) (v : Byte) : (s.logDevice d a v).present = s.present := rfl
@[simp] theorem State.logDevice_mmio (s : State) (d : IoDir) (a : Nat) (v : Byte) : (s.logDevice d a v).mmio = s.mmio := rfl
@[simp] theorem State.logDevice_deviceIn (s : State) (d : IoDir) (a : Nat) (v : Byte) : (s.logDevice d a v).deviceIn = s.deviceIn := rfl
@[simp] theorem State.logDevice_deviceTrace (s : State) (d : IoDir) (a : Nat) (v : Byte) : (s.logDevice d a v).deviceTrace = s.deviceTrace ++ [⟨d, a, v⟩] := rfl
@[simp] theorem State.logDevice_ioIn (s : State) (d : IoDir) (a : Nat) (v : Byte) : (s.logDevice d a v).ioIn = s.ioIn := rfl
@[simp] theorem State.logDevice_ioTrace (s : State) (d : IoDir) (a : Nat) (v : Byte) : (s.logDevice d a v).ioTrace = s.ioTrace := rfl
@[simp] theorem State.logDevice_cycles (s : State) (d : IoDir) (a : Nat) (v : Byte) : (s.logDevice d a v).cycles = s.cycles := rfl
@[simp] theorem State.logDevice_stored (s : State) (d : IoDir) (a : Nat) (v : Byte) : (s.logDevice d a v).stored = s.stored := rfl
@[simp] theorem State.logDevice_draws (s : State) (d : IoDir) (a : Nat) (v : Byte) : (s.logDevice d a v).draws = s.draws := rfl

@[simp] theorem State.remember_regs (s : State) (a : Nat) : (s.remember a).regs = s.regs := rfl
@[simp] theorem State.remember_segs (s : State) (a : Nat) : (s.remember a).segs = s.segs := rfl
@[simp] theorem State.remember_eip (s : State) (a : Nat) : (s.remember a).eip = s.eip := rfl
@[simp] theorem State.remember_flags (s : State) (a : Nat) : (s.remember a).flags = s.flags := rfl
@[simp] theorem State.remember_inhibit (s : State) (a : Nat) : (s.remember a).inhibit = s.inhibit := rfl
@[simp] theorem State.remember_inhibitMaskable (s : State) (a : Nat) : (s.remember a).inhibitMaskable = s.inhibitMaskable := rfl
@[simp] theorem State.remember_shutdown (s : State) (a : Nat) : (s.remember a).shutdown = s.shutdown := rfl
@[simp] theorem State.remember_intr (s : State) (a : Nat) : (s.remember a).intr = s.intr := rfl
@[simp] theorem State.remember_nmi (s : State) (a : Nat) : (s.remember a).nmi = s.nmi := rfl
@[simp] theorem State.remember_resetSignal (s : State) (a : Nat) : (s.remember a).resetSignal = s.resetSignal := rfl
@[simp] theorem State.remember_mem (s : State) (a : Nat) : (s.remember a).mem = s.mem := rfl
@[simp] theorem State.remember_present (s : State) (a : Nat) : (s.remember a).present = s.present := rfl
@[simp] theorem State.remember_mmio (s : State) (a : Nat) : (s.remember a).mmio = s.mmio := rfl
@[simp] theorem State.remember_deviceIn (s : State) (a : Nat) : (s.remember a).deviceIn = s.deviceIn := rfl
@[simp] theorem State.remember_deviceTrace (s : State) (a : Nat) : (s.remember a).deviceTrace = s.deviceTrace := rfl
@[simp] theorem State.remember_ioIn (s : State) (a : Nat) : (s.remember a).ioIn = s.ioIn := rfl
@[simp] theorem State.remember_ioTrace (s : State) (a : Nat) : (s.remember a).ioTrace = s.ioTrace := rfl
@[simp] theorem State.remember_cycles (s : State) (a : Nat) : (s.remember a).cycles = s.cycles := rfl
@[simp] theorem State.remember_stored (s : State) (a : Nat) : (s.remember a).stored = a :: s.stored := rfl
@[simp] theorem State.remember_draws (s : State) (a : Nat) : (s.remember a).draws = s.draws := rfl

@[simp] theorem State.usedDeviceInput_regs (s : State) : (s.usedDeviceInput).regs = s.regs := rfl
@[simp] theorem State.usedDeviceInput_segs (s : State) : (s.usedDeviceInput).segs = s.segs := rfl
@[simp] theorem State.usedDeviceInput_eip (s : State) : (s.usedDeviceInput).eip = s.eip := rfl
@[simp] theorem State.usedDeviceInput_flags (s : State) : (s.usedDeviceInput).flags = s.flags := rfl
@[simp] theorem State.usedDeviceInput_inhibit (s : State) : (s.usedDeviceInput).inhibit = s.inhibit := rfl
@[simp] theorem State.usedDeviceInput_inhibitMaskable (s : State) : (s.usedDeviceInput).inhibitMaskable = s.inhibitMaskable := rfl
@[simp] theorem State.usedDeviceInput_shutdown (s : State) : (s.usedDeviceInput).shutdown = s.shutdown := rfl
@[simp] theorem State.usedDeviceInput_intr (s : State) : (s.usedDeviceInput).intr = s.intr := rfl
@[simp] theorem State.usedDeviceInput_nmi (s : State) : (s.usedDeviceInput).nmi = s.nmi := rfl
@[simp] theorem State.usedDeviceInput_resetSignal (s : State) : (s.usedDeviceInput).resetSignal = s.resetSignal := rfl
@[simp] theorem State.usedDeviceInput_mem (s : State) : (s.usedDeviceInput).mem = s.mem := rfl
@[simp] theorem State.usedDeviceInput_present (s : State) : (s.usedDeviceInput).present = s.present := rfl
@[simp] theorem State.usedDeviceInput_mmio (s : State) : (s.usedDeviceInput).mmio = s.mmio := rfl
@[simp] theorem State.usedDeviceInput_deviceIn (s : State) : (s.usedDeviceInput).deviceIn = s.deviceIn.tail := rfl
@[simp] theorem State.usedDeviceInput_deviceTrace (s : State) : (s.usedDeviceInput).deviceTrace = s.deviceTrace := rfl
@[simp] theorem State.usedDeviceInput_ioIn (s : State) : (s.usedDeviceInput).ioIn = s.ioIn := rfl
@[simp] theorem State.usedDeviceInput_ioTrace (s : State) : (s.usedDeviceInput).ioTrace = s.ioTrace := rfl
@[simp] theorem State.usedDeviceInput_cycles (s : State) : (s.usedDeviceInput).cycles = s.cycles := rfl
@[simp] theorem State.usedDeviceInput_stored (s : State) : (s.usedDeviceInput).stored = s.stored := rfl
@[simp] theorem State.usedDeviceInput_draws (s : State) : (s.usedDeviceInput).draws = if s.deviceIn.isEmpty then s.draws + 1 else s.draws := rfl

@[simp] theorem State.logIo_regs (s : State) (d : IoDir) (port : Word) (w : Width) (v : BitVec w.bits) : (s.logIo d port w v).regs = s.regs := rfl
@[simp] theorem State.logIo_segs (s : State) (d : IoDir) (port : Word) (w : Width) (v : BitVec w.bits) : (s.logIo d port w v).segs = s.segs := rfl
@[simp] theorem State.logIo_eip (s : State) (d : IoDir) (port : Word) (w : Width) (v : BitVec w.bits) : (s.logIo d port w v).eip = s.eip := rfl
@[simp] theorem State.logIo_flags (s : State) (d : IoDir) (port : Word) (w : Width) (v : BitVec w.bits) : (s.logIo d port w v).flags = s.flags := rfl
@[simp] theorem State.logIo_inhibit (s : State) (d : IoDir) (port : Word) (w : Width) (v : BitVec w.bits) : (s.logIo d port w v).inhibit = s.inhibit := rfl
@[simp] theorem State.logIo_inhibitMaskable (s : State) (d : IoDir) (port : Word) (w : Width) (v : BitVec w.bits) : (s.logIo d port w v).inhibitMaskable = s.inhibitMaskable := rfl
@[simp] theorem State.logIo_shutdown (s : State) (d : IoDir) (port : Word) (w : Width) (v : BitVec w.bits) : (s.logIo d port w v).shutdown = s.shutdown := rfl
@[simp] theorem State.logIo_intr (s : State) (d : IoDir) (port : Word) (w : Width) (v : BitVec w.bits) : (s.logIo d port w v).intr = s.intr := rfl
@[simp] theorem State.logIo_nmi (s : State) (d : IoDir) (port : Word) (w : Width) (v : BitVec w.bits) : (s.logIo d port w v).nmi = s.nmi := rfl
@[simp] theorem State.logIo_resetSignal (s : State) (d : IoDir) (port : Word) (w : Width) (v : BitVec w.bits) : (s.logIo d port w v).resetSignal = s.resetSignal := rfl
@[simp] theorem State.logIo_mem (s : State) (d : IoDir) (port : Word) (w : Width) (v : BitVec w.bits) : (s.logIo d port w v).mem = s.mem := rfl
@[simp] theorem State.logIo_present (s : State) (d : IoDir) (port : Word) (w : Width) (v : BitVec w.bits) : (s.logIo d port w v).present = s.present := rfl
@[simp] theorem State.logIo_mmio (s : State) (d : IoDir) (port : Word) (w : Width) (v : BitVec w.bits) : (s.logIo d port w v).mmio = s.mmio := rfl
@[simp] theorem State.logIo_deviceIn (s : State) (d : IoDir) (port : Word) (w : Width) (v : BitVec w.bits) : (s.logIo d port w v).deviceIn = s.deviceIn := rfl
@[simp] theorem State.logIo_deviceTrace (s : State) (d : IoDir) (port : Word) (w : Width) (v : BitVec w.bits) : (s.logIo d port w v).deviceTrace = s.deviceTrace := rfl
@[simp] theorem State.logIo_ioIn (s : State) (d : IoDir) (port : Word) (w : Width) (v : BitVec w.bits) : (s.logIo d port w v).ioIn = s.ioIn := rfl
@[simp] theorem State.logIo_ioTrace (s : State) (d : IoDir) (port : Word) (w : Width) (v : BitVec w.bits) : (s.logIo d port w v).ioTrace = s.ioTrace ++ [⟨d, port, w, v.setWidth 32⟩] := rfl
@[simp] theorem State.logIo_cycles (s : State) (d : IoDir) (port : Word) (w : Width) (v : BitVec w.bits) : (s.logIo d port w v).cycles = s.cycles := rfl
@[simp] theorem State.logIo_stored (s : State) (d : IoDir) (port : Word) (w : Width) (v : BitVec w.bits) : (s.logIo d port w v).stored = s.stored := rfl
@[simp] theorem State.logIo_draws (s : State) (d : IoDir) (port : Word) (w : Width) (v : BitVec w.bits) : (s.logIo d port w v).draws = s.draws := rfl

@[simp] theorem State.usedInput_regs (s : State) : (s.usedInput).regs = s.regs := rfl
@[simp] theorem State.usedInput_segs (s : State) : (s.usedInput).segs = s.segs := rfl
@[simp] theorem State.usedInput_eip (s : State) : (s.usedInput).eip = s.eip := rfl
@[simp] theorem State.usedInput_flags (s : State) : (s.usedInput).flags = s.flags := rfl
@[simp] theorem State.usedInput_inhibit (s : State) : (s.usedInput).inhibit = s.inhibit := rfl
@[simp] theorem State.usedInput_inhibitMaskable (s : State) : (s.usedInput).inhibitMaskable = s.inhibitMaskable := rfl
@[simp] theorem State.usedInput_shutdown (s : State) : (s.usedInput).shutdown = s.shutdown := rfl
@[simp] theorem State.usedInput_intr (s : State) : (s.usedInput).intr = s.intr := rfl
@[simp] theorem State.usedInput_nmi (s : State) : (s.usedInput).nmi = s.nmi := rfl
@[simp] theorem State.usedInput_resetSignal (s : State) : (s.usedInput).resetSignal = s.resetSignal := rfl
@[simp] theorem State.usedInput_mem (s : State) : (s.usedInput).mem = s.mem := rfl
@[simp] theorem State.usedInput_present (s : State) : (s.usedInput).present = s.present := rfl
@[simp] theorem State.usedInput_mmio (s : State) : (s.usedInput).mmio = s.mmio := rfl
@[simp] theorem State.usedInput_deviceIn (s : State) : (s.usedInput).deviceIn = s.deviceIn := rfl
@[simp] theorem State.usedInput_deviceTrace (s : State) : (s.usedInput).deviceTrace = s.deviceTrace := rfl
@[simp] theorem State.usedInput_ioIn (s : State) : (s.usedInput).ioIn = s.ioIn.tail := rfl
@[simp] theorem State.usedInput_ioTrace (s : State) : (s.usedInput).ioTrace = s.ioTrace := rfl
@[simp] theorem State.usedInput_cycles (s : State) : (s.usedInput).cycles = s.cycles := rfl
@[simp] theorem State.usedInput_stored (s : State) : (s.usedInput).stored = s.stored := rfl
@[simp] theorem State.usedInput_draws (s : State) : (s.usedInput).draws = if s.ioIn.isEmpty then s.draws + 1 else s.draws := rfl

@[simp] theorem State.enterHandler_regs (s : State) (sel off : Word) : (s.enterHandler sel off).regs = s.regs := rfl
@[simp] theorem State.enterHandler_segs (s : State) (sel off : Word) : (s.enterHandler sel off).segs = s.segs.set .cs sel := rfl
@[simp] theorem State.enterHandler_eip (s : State) (sel off : Word) : (s.enterHandler sel off).eip = off.setWidth 32 := rfl
@[simp] theorem State.enterHandler_flags (s : State) (sel off : Word) : (s.enterHandler sel off).flags = { s.flags with ief := false, tf := false } := rfl
@[simp] theorem State.enterHandler_inhibit (s : State) (sel off : Word) : (s.enterHandler sel off).inhibit = false := rfl
@[simp] theorem State.enterHandler_inhibitMaskable (s : State) (sel off : Word) : (s.enterHandler sel off).inhibitMaskable = s.inhibitMaskable := rfl
@[simp] theorem State.enterHandler_shutdown (s : State) (sel off : Word) : (s.enterHandler sel off).shutdown = s.shutdown := rfl
@[simp] theorem State.enterHandler_intr (s : State) (sel off : Word) : (s.enterHandler sel off).intr = s.intr := rfl
@[simp] theorem State.enterHandler_nmi (s : State) (sel off : Word) : (s.enterHandler sel off).nmi = s.nmi := rfl
@[simp] theorem State.enterHandler_resetSignal (s : State) (sel off : Word) : (s.enterHandler sel off).resetSignal = s.resetSignal := rfl
@[simp] theorem State.enterHandler_mem (s : State) (sel off : Word) : (s.enterHandler sel off).mem = s.mem := rfl
@[simp] theorem State.enterHandler_present (s : State) (sel off : Word) : (s.enterHandler sel off).present = s.present := rfl
@[simp] theorem State.enterHandler_mmio (s : State) (sel off : Word) : (s.enterHandler sel off).mmio = s.mmio := rfl
@[simp] theorem State.enterHandler_deviceIn (s : State) (sel off : Word) : (s.enterHandler sel off).deviceIn = s.deviceIn := rfl
@[simp] theorem State.enterHandler_deviceTrace (s : State) (sel off : Word) : (s.enterHandler sel off).deviceTrace = s.deviceTrace := rfl
@[simp] theorem State.enterHandler_ioIn (s : State) (sel off : Word) : (s.enterHandler sel off).ioIn = s.ioIn := rfl
@[simp] theorem State.enterHandler_ioTrace (s : State) (sel off : Word) : (s.enterHandler sel off).ioTrace = s.ioTrace := rfl
@[simp] theorem State.enterHandler_cycles (s : State) (sel off : Word) : (s.enterHandler sel off).cycles = s.cycles + Config.intCycles := rfl
@[simp] theorem State.enterHandler_stored (s : State) (sel off : Word) : (s.enterHandler sel off).stored = [] := rfl
@[simp] theorem State.enterHandler_draws (s : State) (sel off : Word) : (s.enterHandler sel off).draws = s.draws := rfl

@[simp] theorem State.jumpFar_regs (s : State) (sel off : Word) : (s.jumpFar sel off).regs = s.regs := rfl
@[simp] theorem State.jumpFar_segs (s : State) (sel off : Word) : (s.jumpFar sel off).segs = s.segs.set .cs sel := rfl
@[simp] theorem State.jumpFar_eip (s : State) (sel off : Word) : (s.jumpFar sel off).eip = off.setWidth 32 := rfl
@[simp] theorem State.jumpFar_flags (s : State) (sel off : Word) : (s.jumpFar sel off).flags = s.flags := rfl
@[simp] theorem State.jumpFar_inhibit (s : State) (sel off : Word) : (s.jumpFar sel off).inhibit = s.inhibit := rfl
@[simp] theorem State.jumpFar_inhibitMaskable (s : State) (sel off : Word) : (s.jumpFar sel off).inhibitMaskable = s.inhibitMaskable := rfl
@[simp] theorem State.jumpFar_shutdown (s : State) (sel off : Word) : (s.jumpFar sel off).shutdown = s.shutdown := rfl
@[simp] theorem State.jumpFar_intr (s : State) (sel off : Word) : (s.jumpFar sel off).intr = s.intr := rfl
@[simp] theorem State.jumpFar_nmi (s : State) (sel off : Word) : (s.jumpFar sel off).nmi = s.nmi := rfl
@[simp] theorem State.jumpFar_resetSignal (s : State) (sel off : Word) : (s.jumpFar sel off).resetSignal = s.resetSignal := rfl
@[simp] theorem State.jumpFar_mem (s : State) (sel off : Word) : (s.jumpFar sel off).mem = s.mem := rfl
@[simp] theorem State.jumpFar_present (s : State) (sel off : Word) : (s.jumpFar sel off).present = s.present := rfl
@[simp] theorem State.jumpFar_mmio (s : State) (sel off : Word) : (s.jumpFar sel off).mmio = s.mmio := rfl
@[simp] theorem State.jumpFar_deviceIn (s : State) (sel off : Word) : (s.jumpFar sel off).deviceIn = s.deviceIn := rfl
@[simp] theorem State.jumpFar_deviceTrace (s : State) (sel off : Word) : (s.jumpFar sel off).deviceTrace = s.deviceTrace := rfl
@[simp] theorem State.jumpFar_ioIn (s : State) (sel off : Word) : (s.jumpFar sel off).ioIn = s.ioIn := rfl
@[simp] theorem State.jumpFar_ioTrace (s : State) (sel off : Word) : (s.jumpFar sel off).ioTrace = s.ioTrace := rfl
@[simp] theorem State.jumpFar_cycles (s : State) (sel off : Word) : (s.jumpFar sel off).cycles = s.cycles := rfl
@[simp] theorem State.jumpFar_stored (s : State) (sel off : Word) : (s.jumpFar sel off).stored = [] := rfl
@[simp] theorem State.jumpFar_draws (s : State) (sel off : Word) : (s.jumpFar sel off).draws = s.draws := rfl

@[simp] theorem State.closeWindows_regs (s : State) : (s.closeWindows).regs = s.regs := rfl
@[simp] theorem State.closeWindows_segs (s : State) : (s.closeWindows).segs = s.segs := rfl
@[simp] theorem State.closeWindows_eip (s : State) : (s.closeWindows).eip = s.eip := rfl
@[simp] theorem State.closeWindows_flags (s : State) : (s.closeWindows).flags = s.flags := rfl
@[simp] theorem State.closeWindows_inhibit (s : State) : (s.closeWindows).inhibit = false := rfl
@[simp] theorem State.closeWindows_inhibitMaskable (s : State) : (s.closeWindows).inhibitMaskable = false := rfl
@[simp] theorem State.closeWindows_shutdown (s : State) : (s.closeWindows).shutdown = s.shutdown := rfl
@[simp] theorem State.closeWindows_intr (s : State) : (s.closeWindows).intr = s.intr := rfl
@[simp] theorem State.closeWindows_nmi (s : State) : (s.closeWindows).nmi = s.nmi := rfl
@[simp] theorem State.closeWindows_resetSignal (s : State) : (s.closeWindows).resetSignal = s.resetSignal := rfl
@[simp] theorem State.closeWindows_mem (s : State) : (s.closeWindows).mem = s.mem := rfl
@[simp] theorem State.closeWindows_present (s : State) : (s.closeWindows).present = s.present := rfl
@[simp] theorem State.closeWindows_mmio (s : State) : (s.closeWindows).mmio = s.mmio := rfl
@[simp] theorem State.closeWindows_deviceIn (s : State) : (s.closeWindows).deviceIn = s.deviceIn := rfl
@[simp] theorem State.closeWindows_deviceTrace (s : State) : (s.closeWindows).deviceTrace = s.deviceTrace := rfl
@[simp] theorem State.closeWindows_ioIn (s : State) : (s.closeWindows).ioIn = s.ioIn := rfl
@[simp] theorem State.closeWindows_ioTrace (s : State) : (s.closeWindows).ioTrace = s.ioTrace := rfl
@[simp] theorem State.closeWindows_cycles (s : State) : (s.closeWindows).cycles = s.cycles := rfl
@[simp] theorem State.closeWindows_stored (s : State) : (s.closeWindows).stored = s.stored := rfl
@[simp] theorem State.closeWindows_draws (s : State) : (s.closeWindows).draws = s.draws := rfl

@[simp] theorem State.begin_regs (s : State) (i : Instr) : (s.begin i).regs = s.regs := rfl
@[simp] theorem State.begin_segs (s : State) (i : Instr) : (s.begin i).segs = s.segs := rfl
@[simp] theorem State.begin_eip (s : State) (i : Instr) : (s.begin i).eip = s.eip := rfl
@[simp] theorem State.begin_flags (s : State) (i : Instr) : (s.begin i).flags = s.flags := rfl
@[simp] theorem State.begin_inhibit (s : State) (i : Instr) : (s.begin i).inhibit = false := rfl
@[simp] theorem State.begin_inhibitMaskable (s : State) (i : Instr) : (s.begin i).inhibitMaskable = false := rfl
@[simp] theorem State.begin_shutdown (s : State) (i : Instr) : (s.begin i).shutdown = s.shutdown := rfl
@[simp] theorem State.begin_intr (s : State) (i : Instr) : (s.begin i).intr = s.intr := rfl
@[simp] theorem State.begin_nmi (s : State) (i : Instr) : (s.begin i).nmi = s.nmi := rfl
@[simp] theorem State.begin_resetSignal (s : State) (i : Instr) : (s.begin i).resetSignal = s.resetSignal := rfl
@[simp] theorem State.begin_mem (s : State) (i : Instr) : (s.begin i).mem = s.mem := rfl
@[simp] theorem State.begin_present (s : State) (i : Instr) : (s.begin i).present = s.present := rfl
@[simp] theorem State.begin_mmio (s : State) (i : Instr) : (s.begin i).mmio = s.mmio := rfl
@[simp] theorem State.begin_deviceIn (s : State) (i : Instr) : (s.begin i).deviceIn = s.deviceIn := rfl
@[simp] theorem State.begin_deviceTrace (s : State) (i : Instr) : (s.begin i).deviceTrace = s.deviceTrace := rfl
@[simp] theorem State.begin_ioIn (s : State) (i : Instr) : (s.begin i).ioIn = s.ioIn := rfl
@[simp] theorem State.begin_ioTrace (s : State) (i : Instr) : (s.begin i).ioTrace = s.ioTrace := rfl
@[simp] theorem State.begin_cycles (s : State) (i : Instr) : (s.begin i).cycles = s.cycles + s.cost i := rfl
@[simp] theorem State.begin_stored (s : State) (i : Instr) : (s.begin i).stored = s.stored := rfl
@[simp] theorem State.begin_draws (s : State) (i : Instr) : (s.begin i).draws = s.draws := rfl

end Sys2Proof.Machine
end

