-- ==== Sys2Proof/Laws/Ops.lean ====
section
/-!
SUPPORT. One lemma for each shared operation: what it answers when its operand can be reached, and what it
answers when it cannot.
-/

namespace Sys2Proof.Machine

/-! ## Memory access -/

theorem State.checkPresent_ok (s : State) : ∀ (n a : Nat), s.plain a n → s.checkPresent a n = .ok ()
  | 0, _, _ => rfl
  | n + 1, a, h => by
    have h0 := h 0 (Nat.succ_pos n)
    have hn : s.plain (a + 1) n := fun k hk => by
      have := h (k + 1) (by omega)
      rwa [show a + (k + 1) = a + 1 + k by omega] at this
    simp only [Nat.add_zero] at h0
    simp [State.checkPresent, h0, State.checkPresent_ok s n (a + 1) hn]

theorem checkLimit_ok {off n : Nat} (h : off + n ≤ 0x10000) : checkLimit off n = .ok () := if_pos h

theorem checkLimit_past {off n : Nat} (h : 0x10000 < off + n) : checkLimit off n = .error (.exc 13) :=
  if_neg (by omega)

/-- A byte of plain memory read. -/
theorem State.loadByte_plain {s : State} {a : Nat} (h : inRegions s.mmio a = false) :
    s.loadByte a = (s.mem.get a, s) := by
  simp [State.loadByte, h]

/-- An operand in plain memory read: its value, and no change of the state. -/
theorem State.loadBytes_plain {s : State} {a : Nat} {w : Width} (h : s.plain a w.bytes) :
    s.loadBytes a w = (s.mem.read a w, s) := by
  have hb : ∀ k, k < w.bytes → s.loadByte (a + k) = (s.mem.get (a + k), s) :=
    fun k hk => State.loadByte_plain (h k hk).2
  cases w with
  | byte => exact hb 0 (by decide)
  | word =>
    have h0 : s.loadByte a = (s.mem.get a, s) := hb 0 (by decide)
    simp only [State.loadBytes, Memory.read, h0, hb 1 (by decide)]
  | dword =>
    have h0 : s.loadByte a = (s.mem.get a, s) := hb 0 (by decide)
    simp only [State.loadBytes, Memory.read, h0, hb 1 (by decide), hb 2 (by decide), hb 3 (by decide)]

/-- Bytes written to plain memory are stored. -/
theorem State.putBytes_plain : ∀ (bs : List Byte) (s : State) (a : Nat), s.plain a bs.length →
    s.putBytes a bs = s.storeBytes a bs
  | [], _, _, _ => rfl
  | x :: xs, s, a, h => by
    have h0 : inRegions s.mmio a = false := (h 0 (Nat.succ_pos _)).2
    have hp : s.putByte a x = s.storeBytes a [x] := by simp [State.putByte, h0]
    have hn : (s.storeBytes a [x]).plain (a + 1) xs.length := fun k hk => by
      have := h (k + 1) (by simp only [List.length_cons]; omega)
      rwa [show a + (k + 1) = a + 1 + k by omega] at this
    rw [State.putBytes, hp, State.putBytes_plain xs _ _ hn]
    simp only [State.storeBytes, Memory.setBytes, List.length_cons, List.length_nil, List.range_succ_eq_map,
      List.map_cons, List.map_map, List.reverse_cons, List.range_zero, List.map_nil, List.reverse_nil,
      Nat.add_zero, List.append_assoc, List.nil_append]
    congr 4
    funext k
    simp only [Function.comp_apply]
    omega

/-- All that a read of a byte can change: the devices' script, their trace and the free draws. -/
theorem State.loadByte_frame (s : State) (a : Nat) : ∃ ins tr k,
    (s.loadByte a).2 = { s with deviceIn := ins, deviceTrace := tr, draws := k } := by
  unfold State.loadByte
  split
  · exact ⟨_, _, _, rfl⟩
  · exact ⟨s.deviceIn, s.deviceTrace, s.draws, rfl⟩

/-- All that a read of an operand can change. -/
theorem State.loadBytes_frame (s : State) (a : Nat) (w : Width) : ∃ ins tr k,
    (s.loadBytes a w).2 = { s with deviceIn := ins, deviceTrace := tr, draws := k } := by
  cases w with
  | byte => exact s.loadByte_frame a
  | word =>
    obtain ⟨_, _, _, h0⟩ := s.loadByte_frame a
    obtain ⟨i, t, k, h1⟩ := (s.loadByte a).2.loadByte_frame (a + 1)
    exact ⟨i, t, k, h1.trans (by rw [h0])⟩
  | dword =>
    obtain ⟨_, _, _, h0⟩ := s.loadByte_frame a
    obtain ⟨_, _, _, h1⟩ := (s.loadByte a).2.loadByte_frame (a + 1)
    obtain ⟨_, _, _, h2⟩ := ((s.loadByte a).2.loadByte (a + 1)).2.loadByte_frame (a + 2)
    obtain ⟨i, t, k, h3⟩ := (((s.loadByte a).2.loadByte (a + 1)).2.loadByte (a + 2)).2.loadByte_frame (a + 3)
    exact ⟨i, t, k, h3.trans (by rw [h2, h1, h0])⟩

/-- All that the fetch of bytes can change. -/
theorem State.loadCode_frame : ∀ (n : Nat) (s : State) (a : Nat), ∃ ins tr k,
    (s.loadCode a n).2 = { s with deviceIn := ins, deviceTrace := tr, draws := k }
  | 0, s, _ => ⟨s.deviceIn, s.deviceTrace, s.draws, rfl⟩
  | n + 1, s, a => by
    obtain ⟨_, _, _, h0⟩ := s.loadByte_frame a
    obtain ⟨i, t, k, h1⟩ := State.loadCode_frame n (s.loadByte a).2 (a + 1)
    exact ⟨i, t, k, h1.trans (by rw [h0])⟩

/-- The cost of an instruction does not look at what a fetch can change. -/
theorem State.cost_fetched (s : State) (n : Nat) (i : Instr) : (s.fetched n).cost i = s.cost i := by
  obtain ⟨_, _, _, h⟩ := State.loadCode_frame n s s.codeAddr
  rw [State.fetched, h]
  cases i <;> rfl

/-- As many bytes are fetched as are asked for. -/
@[simp] theorem State.loadCode_length : ∀ (n : Nat) (s : State) (a : Nat), (s.loadCode a n).1.length = n
  | 0, _, _ => rfl
  | n + 1, s, a => congrArg (· + 1) (State.loadCode_length n (s.loadByte a).2 (a + 1))

/-- The bytes an instruction is decoded from begin with those its fetch reads. -/
theorem State.loadCode_take : ∀ (n k : Nat) (s : State) (a : Nat),
    (s.loadCode a (n + k)).1.take n = (s.loadCode a n).1
  | 0, _, _, _ => by simp [State.loadCode]
  | n + 1, k, s, a => by
    rw [Nat.add_right_comm]
    exact congrArg _ (State.loadCode_take n k (s.loadByte a).2 (a + 1))

/-- Writes keep the canonical form of memory, to devices or not. -/
theorem State.putBytes_wf : ∀ (bs : List Byte) (s : State) (a : Nat), s.mem.wf = true →
    a + bs.length ≤ 2 ^ 32 → (s.putBytes a bs).mem.wf = true
  | [], _, _, h, _ => h
  | x :: xs, s, a, h, ha => by
    simp only [List.length_cons] at ha
    refine State.putBytes_wf xs _ _ ?_ (by omega)
    unfold State.putByte
    split
    · exact h
    · exact Memory.wf_set h (by omega) x

theorem State.checkPresent_devices (s : State) : ∀ (n a : Nat), s.devices a n → s.checkPresent a n = .ok ()
  | 0, _, _ => rfl
  | n + 1, a, h => by
    have h0 := (h 0 (Nat.succ_pos n)).1
    have hn : s.devices (a + 1) n := fun k hk => by
      have := h (k + 1) (by omega)
      rwa [show a + (k + 1) = a + 1 + k by omega] at this
    simp only [Nat.add_zero] at h0
    simp [State.checkPresent, h0, State.checkPresent_devices s n (a + 1) hn]

/-- Bytes written to devices: each is presented to its device and remembered, and memory stays. -/
theorem State.putBytes_devices : ∀ (bs : List Byte) (s : State) (a : Nat), s.devices a bs.length →
    s.putBytes a bs = { s with
      deviceTrace := s.deviceTrace ++ bs.zipIdx.map fun b => (⟨.output, a + b.2, b.1⟩ : DeviceAccess)
      stored := ((List.range bs.length).map (a + ·)).reverse ++ s.stored }
  | [], s, a, _ => by simp [State.putBytes]
  | x :: xs, s, a, h => by
    have h0 := (h 0 (Nat.succ_pos _)).2
    simp only [Nat.add_zero] at h0
    have hn : ((s.logDevice .output a x).remember a).devices (a + 1) xs.length := fun k hk => by
      have := h (k + 1) (by simp only [List.length_cons]; omega)
      rwa [show a + (k + 1) = a + 1 + k by omega] at this
    simp only [State.putBytes, State.putByte, h0, if_true]
    rw [State.putBytes_devices xs _ _ hn]
    simp [State.logDevice, State.remember, List.zipIdx_succ, List.range_succ_eq_map, Function.comp_def,
      Nat.add_assoc, Nat.add_comm 1]

/-- Words pushed fit when each can be pushed. -/
theorem State.checkFrame_ok {s : State} {n : Nat} (h : ∀ k, k < n → s.canPush (2 * k) 2) :
    s.checkFrame n = .ok () := by
  refine if_pos ?_
  simp only [List.all_eq_true, List.mem_range, decide_eq_true_eq]
  exact fun k hk => (h k hk).1

/-- A word that does not fit shuts down, whatever lies in memory. -/
theorem State.checkFrame_past {s : State} {n k : Nat} (hk : k < n) (h : 0x10000 < s.below (2 * k + 2) + 2) :
    s.checkFrame n = .error .shutdown := by
  refine if_neg fun hall => ?_
  simp only [List.all_eq_true, List.mem_range, decide_eq_true_eq] at hall
  have := hall k hk
  simp only [State.below] at h
  omega

theorem State.readLinear_ok {s : State} {a : Nat} {w : Width} (h : s.plain a w.bytes) :
    s.readLinear a w = .ok (s.mem.read a w, s) := by
  simp [State.readLinear, s.checkPresent_ok _ _ h, State.loadBytes_plain h, bind, Except.bind]

theorem State.writeLinear_ok {s : State} {a : Nat} {w : Width} {v : BitVec w.bits} (h : s.plain a w.bytes) :
    s.writeLinear a w v = .ok (s.storeBytes a (leBytes w v)) := by
  have h' : s.plain a (leBytes w v).length := by rwa [leBytes_length]
  simp [State.writeLinear, s.checkPresent_ok _ _ h, State.putBytes_plain _ _ _ h', bind, Except.bind]

theorem State.memRead_ok {s : State} {sr : SReg} {off : Nat} {w : Width} (h : s.reachesAt sr off w.bytes) :
    s.memRead sr off w = .ok (s.mem.read (s.linear sr off) w, s) := by
  simp [State.memRead, checkLimit_ok h.1, State.readLinear_ok h.2, bind, Except.bind]

theorem State.memRead_past {s : State} {sr : SReg} {off : Nat} {w : Width} (h : 0x10000 < off + w.bytes) :
    s.memRead sr off w = .error (.exc 13) := by
  simp [State.memRead, checkLimit_past h, bind, Except.bind]

theorem State.memWrite_ok {s : State} {sr : SReg} {off : Nat} {w : Width} {v : BitVec w.bits}
    (h : s.reachesAt sr off w.bytes) :
    s.memWrite sr off w v = .ok (s.storeBytes (s.linear sr off) (leBytes w v)) := by
  simp [State.memWrite, checkLimit_ok h.1, State.writeLinear_ok h.2, bind, Except.bind]

theorem State.memWrite_past {s : State} {sr : SReg} {off : Nat} {w : Width} {v : BitVec w.bits}
    (h : 0x10000 < off + w.bytes) : s.memWrite sr off w v = .error (.exc 13) := by
  simp [State.memWrite, checkLimit_past h, bind, Except.bind]

/-- What a register update keeps of what can be reached. -/
theorem State.reachesAt_congr {s t : State} (hs : t.segs = s.segs) (hp : t.present = s.present)
    (hm : t.mmio = s.mmio) (sr : SReg) (off n : Nat) : t.reachesAt sr off n ↔ s.reachesAt sr off n := by
  simp only [State.reachesAt, State.plain, State.linear, State.sreg, hs, hp, hm]

theorem State.linear_congr {s t : State} (hs : t.segs = s.segs) (sr : SReg) (off : Nat) :
    t.linear sr off = s.linear sr off := by
  simp only [State.linear, State.sreg, hs]

/-- Every address of the real mode lies below 110000H (R82). -/
theorem State.linear_le (s : State) (sr : SReg) (off : Nat) : s.linear sr off ≤ 0xFFFF0 + off := by
  have := (s.sreg sr).isLt
  simp only [State.linear]
  omega

theorem State.reachesAt_bound {s : State} {sr : SReg} {off n : Nat} (h : s.reachesAt sr off n) :
    s.linear sr off + n ≤ 2 ^ 32 := by
  have := s.linear_le sr off
  have := h.1
  omega

/-! ## Operands -/

theorem State.readRM_ok {s : State} {p : Prefixes} {rm : RM} {w : Width} (h : s.reaches p rm w) :
    s.readRM p rm w = .ok (s.operand p rm w, s) := by
  cases rm with
  | reg r => rfl
  | mem m => exact State.memRead_ok h

theorem State.readRM_past {s : State} {p : Prefixes} {m : Mem} {w : Width}
    (h : 0x10000 < (s.addr m).toNat + w.bytes) : s.readRM p (.mem m) w = .error (.exc 13) :=
  State.memRead_past h

theorem State.aluSrc_ok {s : State} {p : Prefixes} {f : AluForm} (h : s.reachesForm p f) :
    s.aluSrc p f = .ok (s.source p f, s) := by
  cases f with
  | regRm w r rm => exact State.readRM_ok h.2
  | _ => rfl

theorem State.writeRM_ok {s t : State} {p : Prefixes} {rm : RM} {w : Width} {v : BitVec w.bits}
    (hs : t.segs = s.segs) (hp : t.present = s.present) (hm : t.mmio = s.mmio) (h : s.reaches p rm w) :
    s.writeRM t p rm w v = .ok (s.put t p rm w v) := by
  cases rm with
  | reg r => rfl
  | mem m =>
    have h' : t.reachesAt (m.seg p) (s.addr m).toNat w.bytes := (State.reachesAt_congr hs hp hm _ _ _).2 h
    rw [State.writeRM, State.memWrite_ok h', State.linear_congr hs]
    rfl

/-- Bytes stored are stored. -/
theorem State.stores_storeBytes {s t : State} {a : Nat} {w : Width} {v : BitVec w.bits}
    (hwf : s.mem.wf = true) (ha : a + w.bytes ≤ 2 ^ 32)
    (hm : t.mem = s.mem.setBytes a (leBytes w v))
    (hst : t.stored = ((List.range (leBytes w v).length).map (a + ·)).reverse ++ s.stored) : s.stores t a w v := by
  refine ⟨?_, ?_, ?_⟩
  · rw [hm]
    exact Memory.read_of_bytes fun k hk => Memory.get_store_inside hwf ha hk
  · intro b hb
    rw [hm]
    exact Memory.get_store_outside hwf ha hb
  · intro b
    simp only [hst, leBytes_length, List.mem_append, List.mem_reverse, List.mem_map, List.mem_range]
    constructor
    · rintro (⟨k, hk, rfl⟩ | h)
      · exact .inr (by omega)
      · exact .inl h
    · rintro (h | h)
      · exact .inr h
      · exact .inl ⟨b - a, by omega, by omega⟩

/-- What a write to the r/m operand changes. -/
theorem State.writes_put {s t u : State} {p : Prefixes} {rm : RM} {w : Width} {v : BitVec w.bits}
    (hwf : s.mem.wf = true) (h : s.reaches p rm w)
    (hr : t.regs = s.regs) (hm : t.mem = s.mem) (hst : t.stored = s.stored)
    (hu : u.regs = (s.put t p rm w v).regs ∧ u.mem = (s.put t p rm w v).mem ∧
      u.stored = (s.put t p rm w v).stored) : s.writes u p rm w v := by
  obtain ⟨h1, h2, h3⟩ := hu
  cases rm with
  | reg r => exact ⟨by simp [h1, State.put, hr], by simp [h2, State.put, hm], by simp [h3, State.put, hst]⟩
  | mem m =>
    refine ⟨by simp [h1, State.put, hr], State.stores_storeBytes hwf (State.reachesAt_bound h) ?_ ?_⟩
    · rw [h2, ← hm]; rfl
    · rw [h3, ← hst]; rfl

/-! ## Flags -/

theorem FlagWrite.allows_apply (u : FlagWrite) (old : Bool) (k : Nat) : u.allows old (u.apply old k) := by
  cases u <;> simp [FlagWrite.allows, FlagWrite.apply]

/-- Applying a row of R49 changes the flags as the row says. -/
theorem StatusWrite.allows_apply (u : StatusWrite) (f : EFlags) (k : Nat) : u.allows f (u.apply f k) := by
  refine ⟨FlagWrite.allows_apply _ _ _, FlagWrite.allows_apply _ _ _, FlagWrite.allows_apply _ _ _,
    FlagWrite.allows_apply _ _ _, FlagWrite.allows_apply _ _ _, FlagWrite.allows_apply _ _ _, ?_⟩
  exact ⟨rfl, rfl, rfl, rfl, rfl, rfl, rfl, rfl, rfl, rfl, rfl⟩

theorem keepFlags_allows {f g : EFlags} (h : g = f) : keepFlags.allows f g := by
  subst h
  exact ⟨rfl, rfl, rfl, rfl, rfl, rfl, rfl, rfl, rfl, rfl, rfl, rfl, rfl, rfl, rfl, rfl, rfl⟩

/-! ## The stack -/

/-- SP after it was written. -/
@[simp] theorem State.sp_setSp (s : State) (v : Word) : (s.setSp v).sp = v := by
  simp only [State.sp, State.reg, State.setSp_regs, Regs.read_write_word]

theorem State.push_ok {s : State} {w : Width} {v : BitVec w.bits} (h : s.canPush 0 w.bytes) :
    s.push w v = .ok ((s.setSp (s.sp - BitVec.ofNat 16 w.bytes)).storeBytes
      (s.linear .ss (s.below w.bytes)) (leBytes w v)) := by
  simp only [State.canPush, Nat.zero_add] at h
  have h1 : (s.sp - BitVec.ofNat 16 w.bytes).toNat + w.bytes ≤ 0x10000 := h.1
  have h2 : (s.setSp (s.sp - BitVec.ofNat 16 w.bytes)).plain (s.linear .ss (s.below w.bytes)) w.bytes := h.2
  simp only [State.push, if_pos h1]
  exact State.writeLinear_ok h2

theorem State.push_past {s : State} {w : Width} {v : BitVec w.bits}
    (h : 0x10000 < s.below w.bytes + w.bytes) : s.push w v = .error .shutdown := by
  have : ¬(s.sp - BitVec.ofNat 16 w.bytes).toNat + w.bytes ≤ 0x10000 := by
    simp only [State.below] at h; omega
  simp only [State.push, if_neg this]

theorem State.pop_ok {s : State} {w : Width} (h : s.canPop 0 w.bytes) :
    s.pop w = .ok (s.mem.read (s.linear .ss (s.above 0)) w, s.setSp (s.sp + BitVec.ofNat 16 w.bytes)) := by
  have hsp : s.above 0 = s.sp.toNat := by simp [State.above]
  simp only [State.canPop, hsp] at h
  simp [State.pop, checkLimit_ok h.1, State.readLinear_ok h.2, bind, Except.bind, hsp]

theorem State.pop_past {s : State} {w : Width} (h : 0x10000 < s.sp.toNat + w.bytes) :
    s.pop w = .error (.exc 13) := by
  simp [State.pop, checkLimit_past h, bind, Except.bind]

/-! ## The ends of an instruction -/

theorem State.retire_ok (s t : State) (len : Nat) :
    s.retire len (.ok t) = .next (t.setEip (s.eip + BitVec.ofNat 32 len)) := rfl

theorem State.retire_exc (s : State) (len : Nat) (n : Byte) :
    s.retire len (.error (.exc n)) = s.interrupt n (s.eip.extractLsb' 0 16) false := rfl

theorem State.retireJump_ok (s t : State) : s.retireJump (.ok t) = .next t := rfl

theorem State.sameControl_refl (s : State) : s.sameControl s :=
  ⟨rfl, rfl, rfl, rfl, rfl, rfl, rfl, rfl, rfl, rfl, rfl, rfl, rfl⟩

/-- A read-modify-write instruction completes. -/
theorem State.completesWith_of_put {s : State} {i : Instr} {rm : RM} {w : Width} {v : BitVec w.bits}
    {u : StatusWrite} (hwf : s.mem.wf = true) (h : s.reaches i.prefixes rm w)
    (he : exec i s = s.retire i.length (s.writeRM (s.writeStatus u) i.prefixes rm w v)) :
    s.completesWith i rm w v u := by
  rw [State.writeRM_ok (s := s) (t := s.writeStatus u) rfl rfl rfl h, State.retire_ok] at he
  refine ⟨_, he, State.writes_put (t := s.writeStatus u) hwf h rfl rfl rfl ⟨rfl, rfl, rfl⟩, ?_, ?_, ?_, rfl⟩
  · cases rm <;> rfl
  · cases rm <;> exact StatusWrite.allows_apply u s.flags s.draws
  · cases rm <;> exact State.sameControl_refl s

/-- An instruction that writes flags and no operand completes. -/
theorem State.completesRegs_of_status {s : State} {i : Instr} {u : StatusWrite} {g : Regs}
    (he : exec i s = s.retire i.length (.ok (({ s with regs := g } : State).writeStatus u))) :
    s.completesRegs i g u :=
  ⟨_, he, rfl, ⟨rfl, rfl⟩, rfl, StatusWrite.allows_apply u s.flags s.draws, State.sameControl_refl s, rfl⟩

/-- An instruction that writes registers and neither flags nor memory completes. -/
theorem State.completesRegs_of_regs {s : State} {i : Instr} {g : Regs}
    (he : exec i s = s.retire i.length (.ok ({ s with regs := g } : State))) :
    s.completesRegs i g keepFlags :=
  ⟨_, he, rfl, ⟨rfl, rfl⟩, rfl, keepFlags_allows rfl, State.sameControl_refl s, rfl⟩

/-- An instruction that writes one register and neither flags nor memory completes. -/
theorem State.completesWith_of_setReg {s : State} {i : Instr} {r : Reg} {w : Width} {v : BitVec w.bits}
    (he : exec i s = s.retire i.length (.ok (s.setReg r w v))) :
    s.completesWith i (.reg r) w v keepFlags :=
  ⟨_, he, ⟨rfl, rfl, rfl⟩, rfl, keepFlags_allows rfl, State.sameControl_refl s, rfl⟩

end Sys2Proof.Machine
end

