-- ==== Sys2Proof/Laws/Stack.lean ====
section
/-!
SUPPORT. Sequences of word pushes and pops: the frame of a call and of the interrupt sequence, and a far
pointer in memory.
-/

namespace Sys2Proof.Machine

theorem State.sp_sub_sub (s : State) (a b : Nat) :
    s.sp - BitVec.ofNat 16 a - BitVec.ofNat 16 b = s.sp - BitVec.ofNat 16 (a + b) := by
  rw [BitVec.ofNat_add, BitVec.sub_eq_add_neg, BitVec.sub_eq_add_neg, BitVec.sub_eq_add_neg, BitVec.neg_add,
    BitVec.sub_eq_add_neg, BitVec.add_assoc]

theorem State.sp_add_add (s : State) (a b : Nat) :
    s.sp + BitVec.ofNat 16 a + BitVec.ofNat 16 b = s.sp + BitVec.ofNat 16 (a + b) := by
  rw [BitVec.ofNat_add, BitVec.add_assoc]

/-- `t` is `s` after pushes of `k` bytes in all, as far as anything but memory, the remembered stores and
the free draws goes. -/
structure State.PushedBy (s : State) (k : Nat) (t : State) : Prop where
  regs : t.regs = s.pushedRegs k
  segs : t.segs = s.segs
  flags : t.flags = s.flags
  eip : t.eip = s.eip
  control : s.sameControl t
  wf : t.mem.wf = true
  sp : t.sp = s.sp - BitVec.ofNat 16 k

theorem State.pushedBy_zero {s : State} (h : s.mem.wf = true) : s.PushedBy 0 s where
  regs := by simp [State.pushedRegs, State.sp, State.reg]
  segs := rfl
  flags := rfl
  eip := rfl
  control := State.sameControl_refl s
  wf := h
  sp := by simp

/-- One more push of a word. -/
theorem State.PushedBy.push {s t : State} {k : Nat} (hp : s.PushedBy k t) (hc : s.canPush k 2) (v : Word) :
    ∃ u, t.push .word v = .ok u ∧ s.PushedBy (k + 2) u ∧
      u.mem.read (s.linear .ss (s.below (k + 2))) .word = v ∧
      ∀ b, b < s.linear .ss (s.below (k + 2)) ∨ s.linear .ss (s.below (k + 2)) + 2 ≤ b →
        u.mem.get b = t.mem.get b := by
  have hb : t.below 2 = s.below (k + 2) := by simp only [State.below, hp.sp, State.sp_sub_sub]
  have hl : ∀ o, t.linear .ss o = s.linear .ss o := fun o => State.linear_congr hp.segs _ _
  obtain ⟨c1, c2, c3⟩ := hp.control
  have hc' : t.canPush 0 2 := by
    rw [State.canPush, State.reachesAt_congr hp.segs c1 c2, Nat.zero_add, hb]; exact hc
  have hbd : s.linear .ss (s.below (k + 2)) + 2 ≤ 2 ^ 32 := State.reachesAt_bound hc
  refine ⟨_, State.push_ok (w := .word) hc', ⟨?_, hp.segs, hp.flags, hp.eip, ⟨c1, c2, c3⟩, ?_, ?_⟩, ?_, ?_⟩
  · show t.regs.write .esp .word (t.sp - BitVec.ofNat 16 2) = _
    rw [hp.regs, hp.sp, State.pushedRegs, State.pushedRegs, Regs.write_word_write_word, State.sp_sub_sub]
  · refine Memory.wf_setBytes _ hp.wf ?_
    rw [hl, show (Width.word).bytes = 2 from rfl, hb, leBytes_length]; exact hbd
  · exact (State.sp_setSp t _).trans (by rw [hp.sp, State.sp_sub_sub])
  · show Memory.read (t.mem.setBytes (t.linear .ss (t.below 2)) _) _ _ = _
    rw [hl, hb]
    exact Memory.read_of_bytes fun j hj => Memory.get_store_inside hp.wf hbd hj
  · intro b hbb
    show Memory.get (t.mem.setBytes (t.linear .ss (t.below 2)) _) _ = _
    rw [hl, hb]
    exact Memory.get_store_outside hp.wf hbd hbb

/-- Two words pushed do not overlap. -/
theorem State.below_disjoint {s : State} {j k : Nat} (hj : s.canPush j 2) (hk : s.canPush k 2)
    (h : j + 2 ≤ k) (h4 : k ≤ 4) :
    s.linear .ss (s.below (k + 2)) + 2 ≤ s.linear .ss (s.below (j + 2)) ∨
      s.linear .ss (s.below (j + 2)) + 2 ≤ s.linear .ss (s.below (k + 2)) := by
  have h1 := hj.1
  have h2 := hk.1
  have : s.below (k + 2) + 2 ≤ s.below (j + 2) ∨ s.below (j + 2) + 2 ≤ s.below (k + 2) := by
    simp only [State.below, BitVec.toNat_sub, BitVec.toNat_ofNat] at *
    have := s.sp.isLt
    omega
  simp only [State.linear]
  omega

theorem Memory.read_word_congr {m m' : Memory} {a : Nat}
    (h : ∀ b, a ≤ b → b < a + 2 → m'.get b = m.get b) : m'.read a .word = m.read a .word := by
  simp only [Memory.read]
  rw [h _ (by omega) (by omega), h a (by omega) (by omega)]

/-- One word pushed. -/
theorem State.push_word {s : State} (hwf : s.mem.wf = true) (h : s.canPush 0 2) (v : Word) :
    ∃ u, s.push .word v = .ok u ∧ s.PushedBy 2 u ∧ u.mem.read (s.linear .ss (s.below 2)) .word = v ∧
      ∀ b, b < s.linear .ss (s.below 2) ∨ s.linear .ss (s.below 2) + 2 ≤ b → u.mem.get b = s.mem.get b :=
  (State.pushedBy_zero hwf).push h v

/-- Two words pushed. -/
theorem State.push_two_words {s : State} (hwf : s.mem.wf = true) (h : s.canPush 0 2) (h2 : s.canPush 2 2)
    (v v2 : Word) :
    ∃ u u2, s.push .word v = .ok u ∧ u.push .word v2 = .ok u2 ∧ s.PushedBy 4 u2 ∧
      u2.mem.read (s.linear .ss (s.below 2)) .word = v ∧
      u2.mem.read (s.linear .ss (s.below 4)) .word = v2 ∧
      ∀ b, (∀ k ∈ [2, 4], b < s.linear .ss (s.below k) ∨ s.linear .ss (s.below k) + 2 ≤ b) →
        u2.mem.get b = s.mem.get b := by
  obtain ⟨u, e, p, r, f⟩ := State.push_word hwf h v
  obtain ⟨u2, e2, p2, r2, f2⟩ := p.push h2 v2
  simp only [Nat.reduceAdd] at p2 r2 f2
  have hd := State.below_disjoint h h2 (by omega) (by omega)
  simp only [Nat.reduceAdd] at hd
  refine ⟨u, u2, e, e2, p2, ?_, r2, fun b hb => ?_⟩
  · rw [← r]
    exact Memory.read_word_congr fun b hb1 hb2 => f2 b (by omega)
  · rw [f2 b (hb 4 (by simp)), f b (hb 2 (by simp))]

/-- Three words pushed. -/
theorem State.push_three_words {s : State} (hwf : s.mem.wf = true) (h : s.canPush 0 2) (h2 : s.canPush 2 2)
    (h3 : s.canPush 4 2) (v v2 v3 : Word) :
    ∃ u u2 u3, s.push .word v = .ok u ∧ u.push .word v2 = .ok u2 ∧ u2.push .word v3 = .ok u3 ∧
      s.PushedBy 6 u3 ∧
      u3.mem.read (s.linear .ss (s.below 2)) .word = v ∧
      u3.mem.read (s.linear .ss (s.below 4)) .word = v2 ∧
      u3.mem.read (s.linear .ss (s.below 6)) .word = v3 ∧
      ∀ b, (∀ k ∈ [2, 4, 6], b < s.linear .ss (s.below k) ∨ s.linear .ss (s.below k) + 2 ≤ b) →
        u3.mem.get b = s.mem.get b := by
  obtain ⟨u, u2, e, e2, p, r, r2, f⟩ := State.push_two_words hwf h h2 v v2
  obtain ⟨u3, e3, p3, r3, f3⟩ := p.push h3 v3
  simp only [Nat.reduceAdd] at p3 r3 f3
  have hd := State.below_disjoint h h3 (by omega) (by omega)
  have hd2 := State.below_disjoint h2 h3 (by omega) (by omega)
  simp only [Nat.reduceAdd] at hd hd2
  refine ⟨u, u2, u3, e, e2, e3, p3, ?_, ?_, r3, fun b hb => ?_⟩
  · rw [← r]
    exact Memory.read_word_congr fun b hb1 hb2 => f3 b (by omega)
  · rw [← r2]
    exact Memory.read_word_congr fun b hb1 hb2 => f3 b (by omega)
  · rw [f3 b (hb 6 (by simp)), f b fun k hk => hb k (by
      simp only [List.mem_cons, List.not_mem_nil, or_false] at hk ⊢; omega)]

/-- The word popped first, and the state after it. -/
theorem State.pop_word {s : State} (h : s.canPop 0 2) :
    s.pop .word = .ok (s.stackWord 0, s.setSp (s.sp + BitVec.ofNat 16 2)) := State.pop_ok (w := .word) h

/-- A pop after `k` bytes were popped from `s`. -/
theorem State.pop_word_after {s t : State} {k : Nat} (hsp : t.sp = s.sp + BitVec.ofNat 16 k)
    (hs : t.segs = s.segs) (hp : t.present = s.present) (hm : t.mmio = s.mmio) (hmem : t.mem = s.mem)
    (h : s.canPop k 2) :
    t.pop .word = .ok (s.stackWord k, t.setSp (s.sp + BitVec.ofNat 16 (k + 2))) := by
  have ha : t.above 0 = s.above k := by simp [State.above, hsp]
  have h' : t.canPop 0 2 := by
    rw [State.canPop, State.reachesAt_congr hs hp hm, ha]; exact h
  rw [State.pop_word h', State.stackWord, State.stackWord, hmem, State.linear_congr hs, ha, hsp,
    State.sp_add_add]

/-- The return from an interrupt when its three words can be popped. -/
theorem State.returnFromInterrupt_ok {s : State} (h : s.canPop 0 2) (h2 : s.canPop 2 2) (h4 : s.canPop 4 2) :
    ∃ t, s.returnFromInterrupt = .ok t ∧ t.regs = s.poppedRegs 6 ∧
      t.segs = { s.segs with cs := s.stackWord 2 } ∧ t.eip = (s.stackWord 0).setWidth 32 ∧
      t.flags = s.flags.loadFlags (s.stackWord 4) ∧ t.mem = s.mem ∧ s.sameControl t := by
  have e4 := State.pop_word_after (s := s)
    (t := (s.setSp (s.sp + BitVec.ofNat 16 2)).setSp (s.sp + BitVec.ofNat 16 (2 + 2))) (k := 4)
    (State.sp_setSp _ _) rfl rfl rfl rfl h4
  simp only [State.returnFromInterrupt, State.pop_word h, bind, Except.bind]
  rw [State.pop_word_after (s := s) (k := 2) (State.sp_setSp _ _) rfl rfl rfl rfl h2]
  simp only [e4]
  exact ⟨_, rfl, by simp [State.jump, State.setSreg, State.poppedRegs], rfl, rfl, rfl, rfl,
    State.sameControl_refl s⟩

/-- A far pointer that can be reached: selector and offset. -/
theorem State.readFar_ok {s : State} {p : Prefixes} {m : Mem} (h : s.reachesAt (m.seg p) (s.addr m).toNat 4) :
    s.readFar p m =
      .ok (s.mem.read (s.operandAddr p m + 2) .word, s.mem.read (s.operandAddr p m) .word, s) := by
  have h1 : s.reachesAt (m.seg p) (s.addr m).toNat (Width.word).bytes :=
    ⟨by have := h.1; simp only [Width.bytes]; omega, fun k hk => h.2 k (by simp only [Width.bytes] at hk; omega)⟩
  have h2 : s.reachesAt (m.seg p) ((s.addr m).toNat + 2) (Width.word).bytes :=
    ⟨by have := h.1; simp only [Width.bytes]; omega, fun k hk => by
      have := h.2 (2 + k) (by simp only [Width.bytes] at hk; omega)
      rwa [show s.linear (m.seg p) (s.addr m).toNat + (2 + k)
        = s.linear (m.seg p) ((s.addr m).toNat + 2) + k by simp only [State.linear]; omega] at this⟩
  simp only [State.readFar, checkLimit_ok h.1, State.memRead_ok h1, State.memRead_ok h2, bind, Except.bind]
  rfl

end Sys2Proof.Machine
end

