-- ==== Sys2Proof/Machine/Tasm.lean ====
section
/-!
DEFINITION. The assembler's notation (R160 to R166), as far as it fixes values: constants, constant
expressions, data directives, register names, the ranges of the operand symbols, and memory operands. It is
apart from the machine, which reads bytes: no step uses it (log entry 27).
-/

namespace Sys2Proof.Machine

/-! ## Constants (R162) -/

/-- A letter in lower case: mnemonics and names are case-insensitive (R161). -/
def lowerChar (c : Char) : Char :=
  if 'A'.toNat ≤ c.toNat ∧ c.toNat ≤ 'Z'.toNat then Char.ofNat (c.toNat + 32) else c

/-- The value of a digit 0 to 9, a to f. -/
def digitValue (c : Char) : Option Nat :=
  let n := (lowerChar c).toNat
  if 48 ≤ n ∧ n ≤ 57 then some (n - 48)
  else if 97 ≤ n ∧ n ≤ 102 then some (n - 87)
  else none

/-- A number in a base, its leading digits worth `acc`. -/
def digitsIn (base : Nat) : Nat → List Char → Option Nat
  | acc, [] => some acc
  | acc, c :: cs =>
    match digitValue c with
    | some d => if d < base then digitsIn base (acc * base + d) cs else none
    | none => none

/-- A TASM number: decimal, or hexadecimal with a trailing `h`, or binary with a trailing `b`; its first
character is a digit 0 to 9 (R162). -/
def tasmNumber (cs : List Char) : Option Nat :=
  match cs with
  | [] => none
  | c :: _ =>
    if 48 ≤ c.toNat ∧ c.toNat ≤ 57 then
      match lowerChar (cs.getLastD '0') with
      | 'h' => digitsIn 16 0 cs.dropLast
      | 'b' => digitsIn 2 0 cs.dropLast
      | _ => digitsIn 10 0 cs
    else none

/-- A character in quotes is its ASCII code (R162). -/
def tasmChar (c : Char) : Option Byte :=
  if c.toNat < 128 then some (BitVec.ofNat 8 c.toNat) else none

/-! ## Constant expressions (R166) -/

/-- The operators of two operands (R166). -/
inductive BinOp where
  | or | xor | and | eq | ne | lt | le | gt | ge | add | sub | mul | div | mod | shr | shl
  deriving DecidableEq, Repr

/-- The operators of one operand (R166). -/
inductive UnOp where
  | plus | minus | not
  deriving DecidableEq, Repr

/-- A constant expression; a name stands for a constant of EQU or for the offset of a label. -/
inductive Expr where
  | const (v : Dword)
  | name (n : List Char)
  | un (op : UnOp) (e : Expr)
  | bin (op : BinOp) (l r : Expr)
  deriving DecidableEq, Repr

/-- A comparison gives 1 when it is true (R166); 0 else is the model's choice (log entry 27). -/
def truth (b : Bool) : Dword := if b then 1 else 0

/-- One operator on doublewords. DESIGN CHOICE (log entry 27): comparisons, `/` and MOD read them as signed; a
division by 0 has no value; SHR and SHL shift by the whole right operand as an unsigned number, SHR filling
with 0 whatever the sign of the left operand, so that a count of 32 or more gives 0. -/
def BinOp.apply (op : BinOp) (a b : Dword) : Option Dword :=
  match op with
  | .or => some (a ||| b)
  | .xor => some (a ^^^ b)
  | .and => some (a &&& b)
  | .eq => some (truth (decide (a = b)))
  | .ne => some (truth (decide (a ≠ b)))
  | .lt => some (truth (decide (a.toInt < b.toInt)))
  | .le => some (truth (decide (a.toInt ≤ b.toInt)))
  | .gt => some (truth (decide (b.toInt < a.toInt)))
  | .ge => some (truth (decide (b.toInt ≤ a.toInt)))
  | .add => some (a + b)
  | .sub => some (a - b)
  | .mul => some (a * b)
  | .div => if b = 0 then none else some (BitVec.ofInt 32 (a.toInt.tdiv b.toInt))
  | .mod => if b = 0 then none else some (BitVec.ofInt 32 (a.toInt.tmod b.toInt))
  | .shr => some (a >>> b.toNat)
  | .shl => some (a <<< b.toNat)

def UnOp.apply (op : UnOp) (a : Dword) : Dword :=
  match op with
  | .plus => a
  | .minus => -a
  | .not => ~~~a

/-- The value of an expression under the names defined so far (R162, R166). DESIGN CHOICE (log entry 27): the
names of constants and labels are compared letter for letter, case and all (R161 speaks of mnemonics and
register names only), and of several definitions of a name the first in the list counts. -/
def Expr.value (names : List (List Char × Dword)) : Expr → Option Dword
  | .const v => some v
  | .name n => (names.find? fun d => decide (d.1 = n)).map (·.2)
  | .un op e => (e.value names).map op.apply
  | .bin op l r =>
    match l.value names, r.value names with
    | some a, some b => op.apply a b
    | _, _ => none

/-! ## Data directives (R165) -/

/-- One item of a data directive: a value, `?`, a string, or `dd label`, a far pointer (R165, R99). -/
inductive DataItem where
  | value (e : Expr)
  | uninit
  | string (cs : List Char)
  | pointer (sel off : Word)
  deriving DecidableEq, Repr

/-- `n dup (v)` repeats an item; another item stands for itself (R165). -/
structure DataField where
  times : Expr
  item : DataItem
  deriving DecidableEq, Repr

/-- The bytes of an item under `db`, `dw` or `dd`; `none` is a byte left uninitialised (R165). DESIGN
CHOICE (log entry 27): of a value too wide for its unit the low 8 or 16 bits are stored; a quoted string has
bytes under `db` alone, and no value under `dw` or `dd`. -/
def DataItem.bytes (names : List (List Char × Dword)) (w : Width) : DataItem → Option (List (Option Byte))
  | .value e => (e.value names).map fun v => (leBytes w (v.setWidth w.bits)).map some
  | .uninit => some (List.replicate w.bytes none)
  | .string cs => if w = .byte then (cs.mapM tasmChar).map (·.map some) else none
  | .pointer sel off =>
    if w = .dword then some ((leBytes .word off ++ leBytes .word sel).map some) else none

/-- The bytes of a list of items, one after another (R165). DESIGN CHOICE (log entry 27): the count of `dup` is
read as an unsigned doubleword, one whose expression is negative too. -/
def dataBytes (names : List (List Char × Dword)) (w : Width) : List DataField → Option (List (Option Byte))
  | [] => some []
  | f :: fs =>
    match f.times.value names, f.item.bytes names w, dataBytes names w fs with
    | some n, some bs, some rest => some ((List.replicate n.toNat bs).flatten ++ rest)
    | _, _, _ => none

/-! ## Operands (R160, R163, R164) -/

/-- The name of a word register: the row r16 (R160). -/
def wordRegName : Reg → List Char
  | .eax => ['a', 'x'] | .ecx => ['c', 'x'] | .edx => ['d', 'x'] | .ebx => ['b', 'x']
  | .esp => ['s', 'p'] | .ebp => ['b', 'p'] | .esi => ['s', 'i'] | .edi => ['d', 'i']

/-- The name of a byte register: the row r8 (R160). -/
def byteRegName : Reg → List Char
  | .eax => ['a', 'l'] | .ecx => ['c', 'l'] | .edx => ['d', 'l'] | .ebx => ['b', 'l']
  | .esp => ['a', 'h'] | .ebp => ['c', 'h'] | .esi => ['d', 'h'] | .edi => ['b', 'h']

/-- The name of a register operand (R160). -/
def regName (w : Width) (r : Reg) : List Char :=
  match w with
  | .byte => byteRegName r
  | .word => wordRegName r
  | .dword => 'e' :: wordRegName r

def allRegs : List Reg := [.eax, .ecx, .edx, .ebx, .esp, .ebp, .esi, .edi]

/-- The register operand a name stands for (R160, R161). -/
def regOfName (cs : List Char) : Option (Width × Reg) :=
  ([Width.byte, .word, .dword].flatMap fun w => allRegs.map fun r => (w, r)).find? fun o =>
    decide (regName o.1 o.2 = cs.map lowerChar)

/-- A number in the range of imm8, imm16 or imm32 (R160). -/
def immFits (w : Width) (v : Int) : Bool := !outOfRange w.bits v

/-- A target in the range of rel8: from 128 bytes before the end of the instruction to 127 bytes after it
(R144, R160). -/
def rel8Fits (nextIp target : Int) : Bool := decide (nextIp - 128 ≤ target) && decide (target ≤ nextIp + 127)

/-- A memory operand as written: a displacement before the bracket, a base, and an index times 1, 2, 4 or
8 (R163). -/
structure MemSyntax where
  disp : Option Expr
  base : Option Reg
  index : Option (Reg × Scale)
  deriving DecidableEq, Repr

/-- The memory operand of a written one with 32-bit registers: the displacement, if written, as a disp32
(the assembler may choose disp8; R161). ESP is no index (R133). -/
def MemSyntax.mem (names : List (List Char × Dword)) (m : MemSyntax) : Option Mem :=
  match m.disp.map (Expr.value names) with
  | some none => none
  | d =>
    let v : Dword := (d.join).getD 0
    let disp : Disp32 := if d.isSome || decide (m.base = some .ebp) then .d32 v else .none
    match m.base, m.index with
    | none, none => some (.abs32 v)
    | some b, none => some (if b = .esp then .sib b none .x1 disp else .base32 b disp)
    | none, some (i, n) => if i = .esp then none else some (.sibAbs (some i) n v)
    | some b, some (i, n) => if i = .esp then none else some (.sib b (some i) n disp)

/-- The size of an operand: `byte ptr` and its like if written, else the register's, else the declared type
of the label; `ptr` retypes a label (R164). DESIGN CHOICE (log entry 27): where a written `ptr` and the register
disagree, `ptr` counts, and where the register and the label disagree, the register. -/
def operandSize (ptr register label : Option Width) : Option Width :=
  ptr.or (register.or label)

/-! ## The program (R165, R456) -/

/-- A byte image placed in the memory of INIT_STATE, bytes left uninitialised keeping what is there, with
CS:IP at its first instruction and the stack of `.stack` (R165, R456). DESIGN CHOICE (log entry 22): SS is the
stack's segment and SP its size, the top of it; ESP[31:16], DS and every other register keep the values of the
INIT_STATE, for what `.startup` expands to is not given (N9). -/
def InitState.withProgram (i : InitState) (image : List (Option Byte)) (cs ip ss stackSize : Word) : InitState :=
  let a := cs.toNat * 16 + ip.toNat
  { i with
    mem := (image.zipIdx).foldl (fun m b => match b.1 with | some v => m.set (a + b.2) v | none => m) i.mem
    segs := { i.segs with cs := cs, ss := ss }
    ip := ip
    regs := i.regs.write .esp .word stackSize }

end Sys2Proof.Machine
end

