-- ==== Sys2Proof/Tests/Slice0.lean ====
section
/-!
SUPPORT. The model's own tests: words written out from the encoding tables, ill-formed terms, one-step tests
whose expected results are the vectors of `95_test_vectors.md` (named by their numbers), and for every
statement with hypotheses a state that meets them.
-/

namespace Sys2Proof.Tests

open Sys2Proof.Machine

/-! ## Decoding: words of the encoding tables -/

/-- The prefixes of the tests. -/
def p0 : Prefixes := ⟨false, false, none⟩
def p66 : Prefixes := ⟨true, false, none⟩
def p67 : Prefixes := ⟨false, true, none⟩
def p6766 : Prefixes := ⟨true, true, none⟩

/-- The bytes decode to the instruction, with nothing left, and the instruction encodes to them. -/
def reads (bs : List Byte) (i : Instr) : Bool := decide (decode bs = .ok (i, [])) && decide (encode i = bs)

/-- The bytes decode to the instruction's primary mnemonic, and the instruction encodes to them. -/
def readsAlias (bs : List Byte) (i : Instr) : Bool :=
  decide (decode bs = .ok (i.core, [])) && decide (encode i = bs)

/-- The rows of R243 for ADD: `00+8n /r`, `03+8n /r`, `05+8n id`, `81 /n`, `83 /n` with n = 0. -/
theorem test_decode_add :
    (reads [0x00, 0xD8] (.add p0 (.rmReg .byte (.reg .eax) .ebx)) &&
    reads [0x03, 0x07] (.add p0 (.regRm .word .eax (.mem (.base16 .bx .none)))) &&
    reads [0x66, 0x05, 0x78, 0x56, 0x34, 0x12] (.add p66 (.accImm .dword 0x12345678)) &&
    reads [0x81, 0xC3, 0x34, 0x12] (.add p0 (.rmImm .word (.reg .ebx) 0x1234)) &&
    reads [0x83, 0xC3, 0xFE] (.add p0 (.rmImm8 .word (.reg .ebx) 0xFE))) = true := by decide

/-- The rows of R243 for OR: `00+8n /r`, `03+8n /r`, `05+8n id`, `81 /n`, `83 /n` with n = 1. -/
theorem test_decode_or :
    (reads [0x08, 0xD8] (.or p0 (.rmReg .byte (.reg .eax) .ebx)) &&
    reads [0x0B, 0x07] (.or p0 (.regRm .word .eax (.mem (.base16 .bx .none)))) &&
    reads [0x66, 0x0D, 0x78, 0x56, 0x34, 0x12] (.or p66 (.accImm .dword 0x12345678)) &&
    reads [0x81, 0xCB, 0x34, 0x12] (.or p0 (.rmImm .word (.reg .ebx) 0x1234)) &&
    reads [0x83, 0xCB, 0xFE] (.or p0 (.rmImm8 .word (.reg .ebx) 0xFE))) = true := by decide

/-- The rows of R243 for ADC: `00+8n /r`, `03+8n /r`, `05+8n id`, `81 /n`, `83 /n` with n = 2. -/
theorem test_decode_adc :
    (reads [0x10, 0xD8] (.adc p0 (.rmReg .byte (.reg .eax) .ebx)) &&
    reads [0x13, 0x07] (.adc p0 (.regRm .word .eax (.mem (.base16 .bx .none)))) &&
    reads [0x66, 0x15, 0x78, 0x56, 0x34, 0x12] (.adc p66 (.accImm .dword 0x12345678)) &&
    reads [0x81, 0xD3, 0x34, 0x12] (.adc p0 (.rmImm .word (.reg .ebx) 0x1234)) &&
    reads [0x83, 0xD3, 0xFE] (.adc p0 (.rmImm8 .word (.reg .ebx) 0xFE))) = true := by decide

/-- The rows of R243 for SBB: `00+8n /r`, `03+8n /r`, `05+8n id`, `81 /n`, `83 /n` with n = 3. -/
theorem test_decode_sbb :
    (reads [0x18, 0xD8] (.sbb p0 (.rmReg .byte (.reg .eax) .ebx)) &&
    reads [0x1B, 0x07] (.sbb p0 (.regRm .word .eax (.mem (.base16 .bx .none)))) &&
    reads [0x66, 0x1D, 0x78, 0x56, 0x34, 0x12] (.sbb p66 (.accImm .dword 0x12345678)) &&
    reads [0x81, 0xDB, 0x34, 0x12] (.sbb p0 (.rmImm .word (.reg .ebx) 0x1234)) &&
    reads [0x83, 0xDB, 0xFE] (.sbb p0 (.rmImm8 .word (.reg .ebx) 0xFE))) = true := by decide

/-- The rows of R243 for AND: `00+8n /r`, `03+8n /r`, `05+8n id`, `81 /n`, `83 /n` with n = 4. -/
theorem test_decode_and :
    (reads [0x20, 0xD8] (.and p0 (.rmReg .byte (.reg .eax) .ebx)) &&
    reads [0x23, 0x07] (.and p0 (.regRm .word .eax (.mem (.base16 .bx .none)))) &&
    reads [0x66, 0x25, 0x78, 0x56, 0x34, 0x12] (.and p66 (.accImm .dword 0x12345678)) &&
    reads [0x81, 0xE3, 0x34, 0x12] (.and p0 (.rmImm .word (.reg .ebx) 0x1234)) &&
    reads [0x83, 0xE3, 0xFE] (.and p0 (.rmImm8 .word (.reg .ebx) 0xFE))) = true := by decide

/-- The rows of R243 for SUB: `00+8n /r`, `03+8n /r`, `05+8n id`, `81 /n`, `83 /n` with n = 5. -/
theorem test_decode_sub :
    (reads [0x28, 0xD8] (.sub p0 (.rmReg .byte (.reg .eax) .ebx)) &&
    reads [0x2B, 0x07] (.sub p0 (.regRm .word .eax (.mem (.base16 .bx .none)))) &&
    reads [0x66, 0x2D, 0x78, 0x56, 0x34, 0x12] (.sub p66 (.accImm .dword 0x12345678)) &&
    reads [0x81, 0xEB, 0x34, 0x12] (.sub p0 (.rmImm .word (.reg .ebx) 0x1234)) &&
    reads [0x83, 0xEB, 0xFE] (.sub p0 (.rmImm8 .word (.reg .ebx) 0xFE))) = true := by decide

/-- The rows of R243 for XOR: `00+8n /r`, `03+8n /r`, `05+8n id`, `81 /n`, `83 /n` with n = 6. -/
theorem test_decode_xor :
    (reads [0x30, 0xD8] (.xor p0 (.rmReg .byte (.reg .eax) .ebx)) &&
    reads [0x33, 0x07] (.xor p0 (.regRm .word .eax (.mem (.base16 .bx .none)))) &&
    reads [0x66, 0x35, 0x78, 0x56, 0x34, 0x12] (.xor p66 (.accImm .dword 0x12345678)) &&
    reads [0x81, 0xF3, 0x34, 0x12] (.xor p0 (.rmImm .word (.reg .ebx) 0x1234)) &&
    reads [0x83, 0xF3, 0xFE] (.xor p0 (.rmImm8 .word (.reg .ebx) 0xFE))) = true := by decide

/-- The rows of R243 for CMP: `00+8n /r`, `03+8n /r`, `05+8n id`, `81 /n`, `83 /n` with n = 7. -/
theorem test_decode_cmp :
    (reads [0x38, 0xD8] (.cmp p0 (.rmReg .byte (.reg .eax) .ebx)) &&
    reads [0x3B, 0x07] (.cmp p0 (.regRm .word .eax (.mem (.base16 .bx .none)))) &&
    reads [0x66, 0x3D, 0x78, 0x56, 0x34, 0x12] (.cmp p66 (.accImm .dword 0x12345678)) &&
    reads [0x81, 0xFB, 0x34, 0x12] (.cmp p0 (.rmImm .word (.reg .ebx) 0x1234)) &&
    reads [0x83, 0xFB, 0xFE] (.cmp p0 (.rmImm8 .word (.reg .ebx) 0xFE))) = true := by decide

/-- R284, R280, R251, R252, R253, R258, R259: the group F6 and F7, `84 /r` and `A8 ib`. -/
theorem test_decode_unary :
    (reads [0xA8, 0x01] (.test p0 (.accImm .byte 0x01)) &&
    reads [0xF7, 0xC3, 0x34, 0x12] (.test p0 (.rmImm .word (.reg .ebx) 0x1234)) &&
    reads [0x84, 0xD8] (.test p0 (.rmReg .byte (.reg .eax) .ebx)) &&
    reads [0xF6, 0xD0] (.not p0 .byte (.reg .eax)) &&
    reads [0x66, 0xF7, 0xDB] (.neg p66 .dword (.reg .ebx)) &&
    reads [0xF6, 0xE3] (.mul p0 .byte (.reg .ebx)) &&
    reads [0xF7, 0xEB] (.imulAcc p0 .word (.reg .ebx)) &&
    reads [0xF6, 0xF3] (.div p0 .byte (.reg .ebx)) &&
    reads [0x66, 0xF7, 0xFB] (.idiv p66 .dword (.reg .ebx))) = true := by decide

/-- R254, R255, R256; V-AR-48, V-AR-50, V-AR-51. -/
theorem test_decode_multiply_forms :
    (reads [0x0F, 0xAF, 0xC3] (.imulRRm p0 .eax (.reg .ebx)) &&
    reads [0x6B, 0xC3, 0xFE] (.imulRRmImm8 p0 .eax (.reg .ebx) 0xFE) &&
    reads [0x69, 0xC3, 0x00, 0x40] (.imulRRmImm p0 .word .eax (.reg .ebx) 0x4000)) = true := by decide

/-- R248, R249, R285, R286. -/
theorem test_decode_step_and_bit :
    (reads [0xFE, 0xC0] (.incRm p0 .byte (.reg .eax)) &&
    reads [0x66, 0x47] (.incR p66 .edi) &&
    reads [0xFF, 0x0F] (.decRm p0 .word (.mem (.base16 .bx .none))) &&
    reads [0x49] (.decR p0 .ecx) &&
    reads [0x0F, 0xA3, 0xD8] (.btRmR p0 (.reg .eax) .ebx) &&
    reads [0x0F, 0xBA, 0xE0, 0x11] (.btRmImm p0 (.reg .eax) 0x11)) = true := by decide

/-- R300: `D0 /n`, `D3 /n` and `C1 /n ib`, the digits of R301 to R308. -/
theorem test_decode_shifts :
    (reads [0xD0, 0xC0] (.rol p0 .byte (.reg .eax) .one) &&
    reads [0x66, 0xD3, 0xC3] (.rol p66 .dword (.reg .ebx) .cl) &&
    reads [0xC1, 0xC0, 0x04] (.rol p0 .word (.reg .eax) (.imm 4)) &&
    reads [0xD0, 0xC8] (.ror p0 .byte (.reg .eax) .one) &&
    reads [0x66, 0xD3, 0xCB] (.ror p66 .dword (.reg .ebx) .cl) &&
    reads [0xC1, 0xC8, 0x04] (.ror p0 .word (.reg .eax) (.imm 4)) &&
    reads [0xD0, 0xD0] (.rcl p0 .byte (.reg .eax) .one) &&
    reads [0x66, 0xD3, 0xD3] (.rcl p66 .dword (.reg .ebx) .cl) &&
    reads [0xC1, 0xD0, 0x04] (.rcl p0 .word (.reg .eax) (.imm 4)) &&
    reads [0xD0, 0xD8] (.rcr p0 .byte (.reg .eax) .one) &&
    reads [0x66, 0xD3, 0xDB] (.rcr p66 .dword (.reg .ebx) .cl) &&
    reads [0xC1, 0xD8, 0x04] (.rcr p0 .word (.reg .eax) (.imm 4)) &&
    reads [0xD0, 0xE0] (.sal p0 .byte (.reg .eax) .one) &&
    reads [0x66, 0xD3, 0xE3] (.sal p66 .dword (.reg .ebx) .cl) &&
    reads [0xC1, 0xE0, 0x04] (.sal p0 .word (.reg .eax) (.imm 4)) &&
    reads [0xD0, 0xE8] (.shr p0 .byte (.reg .eax) .one) &&
    reads [0x66, 0xD3, 0xEB] (.shr p66 .dword (.reg .ebx) .cl) &&
    reads [0xC1, 0xE8, 0x04] (.shr p0 .word (.reg .eax) (.imm 4)) &&
    reads [0xD0, 0xF8] (.sar p0 .byte (.reg .eax) .one) &&
    reads [0x66, 0xD3, 0xFB] (.sar p66 .dword (.reg .ebx) .cl) &&
    reads [0xC1, 0xF8, 0x04] (.sar p0 .word (.reg .eax) (.imm 4))) = true := by decide

/-- R200 to R207, the digits and codes of R34 and R37. -/
theorem test_decode_moves :
    (reads [0x89, 0xD8] (.movRmR p0 .word (.reg .eax) .ebx) &&
    reads [0x8A, 0x27] (.movRRm p0 .byte .esp (.mem (.base16 .bx .none))) &&
    reads [0x8C, 0xD8] (.movRmSreg p0 (.reg .eax) .ds) &&
    reads [0x8E, 0xD0] (.movSregRm p0 .ss (.reg .eax)) &&
    reads [0xA1, 0x34, 0x12] (.movAccMoffs p0 .word (.o16 0x1234)) &&
    reads [0x67, 0xA2, 0x00, 0x02, 0x00, 0x00] (.movMoffsAcc p67 .byte (.o32 0x200)) &&
    reads [0xB4, 0x99] (.movRImm p0 .byte .esp 0x99) &&
    reads [0x66, 0xBB, 0x78, 0x56, 0x34, 0x12] (.movRImm p66 .dword .ebx 0x12345678) &&
    reads [0xC6, 0x06, 0x00, 0x02, 0x7F] (.movRmImm p0 .byte (.mem (.abs16 0x200)) 0x7F)) = true := by decide

/-- R208 to R216. -/
theorem test_decode_stack_and_exchange :
    (reads [0x93] (.xchgAcc p0 .ebx) &&
    reads [0x87, 0x07] (.xchgRmR p0 .word (.mem (.base16 .bx .none)) .eax) &&
    reads [0xFF, 0x36, 0x00, 0x02] (.pushRm p0 (.mem (.abs16 0x200))) &&
    reads [0x66, 0x50] (.pushR p66 .eax) &&
    reads [0x68, 0x34, 0x12] (.pushImm p0 .word 0x1234) &&
    reads [0x1E] (.pushSreg p0 .ds) &&
    reads [0x0E] (.pushSreg p0 .cs) &&
    reads [0x0F, 0xA8] (.pushSreg p0 .gs) &&
    reads [0x8F, 0x06, 0x00, 0x02] (.popRm p0 (.mem (.abs16 0x200))) &&
    reads [0x5C] (.popR p0 .esp) &&
    reads [0x17] (.popSreg p0 .ss) &&
    reads [0x0F, 0xA1] (.popSreg p0 .fs)) = true := by decide

/-- R217 to R220. -/
theorem test_decode_extensions :
    (reads [0x0F, 0xBE, 0xC3] (.movsx8 p0 .eax (.reg .ebx)) &&
    reads [0x66, 0x0F, 0xBF, 0xC3] (.movsx16 p66 .eax (.reg .ebx)) &&
    reads [0x0F, 0xB6, 0xC3] (.movzx8 p0 .eax (.reg .ebx)) &&
    reads [0x66, 0x0F, 0xB7, 0xC3] (.movzx16 p66 .eax (.reg .ebx)) &&
    reads [0x99] (.cwd p0) &&
    reads [0x66, 0x99] (.cdq p66)) = true := by decide

/-- R320, R322: `70+cc cb`. -/
theorem test_decode_jcc_rel8 :
    (reads [0x70, 0xFE] (.jo p0 (.rel8 0xFE)) &&
    reads [0x71, 0xFE] (.jno p0 (.rel8 0xFE)) &&
    reads [0x72, 0xFE] (.jb p0 (.rel8 0xFE)) &&
    reads [0x73, 0xFE] (.jae p0 (.rel8 0xFE)) &&
    reads [0x74, 0xFE] (.je p0 (.rel8 0xFE)) &&
    reads [0x75, 0xFE] (.jne p0 (.rel8 0xFE)) &&
    reads [0x76, 0xFE] (.jbe p0 (.rel8 0xFE)) &&
    reads [0x77, 0xFE] (.ja p0 (.rel8 0xFE)) &&
    reads [0x78, 0xFE] (.js p0 (.rel8 0xFE)) &&
    reads [0x79, 0xFE] (.jns p0 (.rel8 0xFE)) &&
    reads [0x7A, 0xFE] (.jp p0 (.rel8 0xFE)) &&
    reads [0x7B, 0xFE] (.jnp p0 (.rel8 0xFE)) &&
    reads [0x7C, 0xFE] (.jl p0 (.rel8 0xFE)) &&
    reads [0x7D, 0xFE] (.jge p0 (.rel8 0xFE)) &&
    reads [0x7E, 0xFE] (.jle p0 (.rel8 0xFE)) &&
    reads [0x7F, 0xFE] (.jg p0 (.rel8 0xFE))) = true := by decide

/-- R320, R323: `0F 80+cc cw`. -/
theorem test_decode_jcc_rel16 :
    (reads [0x0F, 0x80, 0x10, 0x00] (.jo p0 (.rel16 0x10)) &&
    reads [0x0F, 0x81, 0x10, 0x00] (.jno p0 (.rel16 0x10)) &&
    reads [0x0F, 0x82, 0x10, 0x00] (.jb p0 (.rel16 0x10)) &&
    reads [0x0F, 0x83, 0x10, 0x00] (.jae p0 (.rel16 0x10)) &&
    reads [0x0F, 0x84, 0x10, 0x00] (.je p0 (.rel16 0x10)) &&
    reads [0x0F, 0x85, 0x10, 0x00] (.jne p0 (.rel16 0x10)) &&
    reads [0x0F, 0x86, 0x10, 0x00] (.jbe p0 (.rel16 0x10)) &&
    reads [0x0F, 0x87, 0x10, 0x00] (.ja p0 (.rel16 0x10)) &&
    reads [0x0F, 0x88, 0x10, 0x00] (.js p0 (.rel16 0x10)) &&
    reads [0x0F, 0x89, 0x10, 0x00] (.jns p0 (.rel16 0x10)) &&
    reads [0x0F, 0x8A, 0x10, 0x00] (.jp p0 (.rel16 0x10)) &&
    reads [0x0F, 0x8B, 0x10, 0x00] (.jnp p0 (.rel16 0x10)) &&
    reads [0x0F, 0x8C, 0x10, 0x00] (.jl p0 (.rel16 0x10)) &&
    reads [0x0F, 0x8D, 0x10, 0x00] (.jge p0 (.rel16 0x10)) &&
    reads [0x0F, 0x8E, 0x10, 0x00] (.jle p0 (.rel16 0x10)) &&
    reads [0x0F, 0x8F, 0x10, 0x00] (.jg p0 (.rel16 0x10))) = true := by decide

/-- R320, R301: the other names of an encoding; the decoder answers the first one (log entry 30). -/
theorem test_decode_aliases :
    (readsAlias [0x72, 0x10] (.jc p0 (.rel8 0x10)) &&
    readsAlias [0x72, 0x10] (.jnae p0 (.rel8 0x10)) &&
    readsAlias [0x73, 0x10] (.jnb p0 (.rel8 0x10)) &&
    readsAlias [0x73, 0x10] (.jnc p0 (.rel8 0x10)) &&
    readsAlias [0x74, 0x10] (.jz p0 (.rel8 0x10)) &&
    readsAlias [0x75, 0x10] (.jnz p0 (.rel8 0x10)) &&
    readsAlias [0x76, 0x10] (.jna p0 (.rel8 0x10)) &&
    readsAlias [0x77, 0x10] (.jnbe p0 (.rel8 0x10)) &&
    readsAlias [0x7A, 0x10] (.jpe p0 (.rel8 0x10)) &&
    readsAlias [0x7B, 0x10] (.jpo p0 (.rel8 0x10)) &&
    readsAlias [0x7C, 0x10] (.jnge p0 (.rel8 0x10)) &&
    readsAlias [0x7D, 0x10] (.jnl p0 (.rel8 0x10)) &&
    readsAlias [0x7E, 0x10] (.jng p0 (.rel8 0x10)) &&
    readsAlias [0x7F, 0x10] (.jnle p0 (.rel8 0x10)) &&
    readsAlias [0xD0, 0xE0] (.shl p0 .byte (.reg .eax) .one)) = true := by decide

/-- R324 to R328; E22, E24. -/
theorem test_decode_jumps :
    (reads [0xEB, 0xFE] (.jmpRel p0 (.rel8 0xFE)) &&
    reads [0x66, 0xE9, 0x00, 0x00, 0x01, 0x00] (.jmpRel p66 (.rel32 0x10000)) &&
    reads [0xFF, 0xE0] (.jmpRm p0 (.reg .eax)) &&
    reads [0xEA, 0xF0, 0xFF, 0x00, 0xF0] (.jmpPtr p0 0xF000 0xFFF0) &&
    reads [0xFF, 0x2F] (.jmpMem p0 (.base16 .bx .none))) = true := by decide

/-- R329 to R337; E21, E23. -/
theorem test_decode_calls_and_returns :
    (reads [0xE8, 0x0D, 0x00] (.callRel p0 0x0D) &&
    reads [0xFF, 0xD4] (.callRm p0 (.reg .esp)) &&
    reads [0x9A, 0x00, 0x00, 0x00, 0x05] (.callPtr p0 0x0500 0x0000) &&
    reads [0xFF, 0x1E, 0x00, 0x02] (.callMem p0 (.abs16 0x200)) &&
    reads [0xCB] (.retFar p0) &&
    reads [0xCA, 0x04, 0x00] (.retFarImm p0 4) &&
    reads [0xC3] (.retNear p0) &&
    reads [0xC2, 0x02, 0x00] (.retNearImm p0 2) &&
    reads [0xCF] (.iret p0)) = true := by decide

/-- R360 to R371. -/
theorem test_decode_flags_io_misc :
    (reads [0xF9] (.stc p0) &&
    reads [0x66, 0xF8] (.clc p66) &&
    reads [0xF5] (.cmc p0) &&
    reads [0xFA] (.cli p0) &&
    reads [0xFB] (.sti p0) &&
    reads [0xE4, 0x60] (.inImm p0 .byte 0x60) &&
    reads [0x66, 0xED] (.inDx p66 .dword) &&
    reads [0xE7, 0x10] (.outImm p0 .word 0x10) &&
    reads [0xEE] (.outDx p0 .byte) &&
    reads [0x8D, 0x5C, 0x02] (.lea p0 .ebx (.mem (.base16 .si (.d8 2)))) &&
    reads [0x90] (.nop p0)) = true := by decide

/-- R131 to R133, R122: vectors E1 to E9 and E32. -/
theorem test_decode_addressing :
    (reads [0x03, 0x00] (.add p0 (.regRm .word .eax (.mem (.base16 .bxsi .none)))) &&
    reads [0x8B, 0x46, 0xFE] (.movRRm p0 .word .eax (.mem (.base16 .bp (.d8 0xFE)))) &&
    reads [0x8B, 0x06, 0x34, 0x12] (.movRRm p0 .word .eax (.mem (.abs16 0x1234))) &&
    reads [0x26, 0x8A, 0x07] (.movRRm ⟨false, false, some .es⟩ .byte .eax (.mem (.base16 .bx .none))) &&
    reads [0x67, 0x66, 0x8B, 0x04, 0x98] (.movRRm p6766 .dword .eax (.mem (.sib .eax (some .ebx) .x4 .none))) &&
    reads [0x67, 0x8B, 0x04, 0x24] (.movRRm p67 .word .eax (.mem (.sib .esp none .x1 .none))) &&
    reads [0x67, 0x8B, 0x45, 0x00] (.movRRm p67 .word .eax (.mem (.base32 .ebp (.d8 0)))) &&
    reads [0x67, 0x8B, 0x05, 0x78, 0x56, 0x34, 0x12] (.movRRm p67 .word .eax (.mem (.abs32 0x12345678))) &&
    reads [0x67, 0x8B, 0x04, 0x6D, 0x10, 0x00, 0x00, 0x00] (.movRRm p67 .word .eax (.mem (.sibAbs (some .ebp) .x2 0x10))) &&
    reads [0x67, 0x66, 0x2E, 0x81, 0x84, 0x88, 0x44, 0x33, 0x22, 0x11, 0x78, 0x56, 0x34, 0x12] (.add ⟨true, true, some .cs⟩ (.rmImm .dword (.mem (.sib .eax (some .ecx) .x4 (.d32 0x11223344))) 0x12345678))) = true := by decide

/-- Prefixes in another order than the encoder's (R121). -/
theorem test_decode_prefix_order :
    decode [0x66, 0x67, 0x8B, 0x04, 0x98] = decode [0x67, 0x66, 0x8B, 0x04, 0x98] := by decide

/-- The host's numbering: the first byte is the lowest; bytes above are 0. -/
theorem test_decodeTableWord :
    decodeTableWord 16 0xD800 = some (.add p0 (.rmReg .byte (.reg .eax) .ebx)) ∧
    decodeTableWord 8 0xE9 = some (.jmpRel p0 (.rel16 0)) ∧ decodeTableWord 8 0xF4 = none := by decide

/-- Bytes that end too soon. -/
theorem test_decode_needMore :
    decode [] = .error .needMore ∧ decode [0x66] = .error .needMore ∧ decode [0x0F] = .error .needMore ∧
    decode [0x81, 0xC3, 0x34] = .error .needMore := by decide

/-! ## Well-formedness: a term each check refuses -/

/-- The operand size of a form (R124, R159, R202, R217). -/
theorem test_wf_operand_size :
    ((Instr.not p0 .dword (.reg .eax)).wf || (Instr.not p66 .word (.reg .eax)).wf ||
      (Instr.add p0 (.accImm .dword 0)).wf || (Instr.test p66 (.accImm .word 0)).wf ||
      (Instr.add p0 (.rmImm8 .byte (.reg .eax) 0)).wf || (Instr.pushImm p0 .byte 0).wf ||
      (Instr.retNear p66).wf || (Instr.movRmSreg p66 (.reg .eax) .ds).wf ||
      (Instr.movsx16 p0 .eax (.reg .ebx)).wf || (Instr.cwd p66).wf || (Instr.cdq p0).wf) = false := by decide

/-- The addressing form (R131 to R133, R136, R144). -/
theorem test_wf_addressing :
    (Mem.wf true (.base16 .bx .none) || Mem.wf false (.base16 .bp .none) || Mem.wf true (.abs16 0) ||
      Mem.wf false (.base32 .eax .none) || Mem.wf true (.base32 .esp .none) || Mem.wf true (.base32 .ebp .none) ||
      Mem.wf false (.abs32 0) || Mem.wf false (.sib .eax none .x1 .none) ||
      Mem.wf true (.sib .eax (some .esp) .x1 .none) || Mem.wf true (.sib .ebp none .x1 .none) ||
      Mem.wf false (.sibAbs none .x1 0) || Mem.wf true (.sibAbs (some .esp) .x1 0) ||
      RM.wf p67 (.mem (.abs16 0)) || Moffs.wf p67 (.o16 0) || Moffs.wf p0 (.o32 0) ||
      Rel.wf p66 (.rel16 0) || Rel.wf p0 (.rel32 0)) = false := by decide

/-- The registers of a form (R157, R203, R208). -/
theorem test_wf_registers :
    ((Instr.movSregRm p0 .cs (.reg .eax)).wf || (Instr.popSreg p0 .cs).wf || (Instr.xchgAcc p0 .eax).wf) = false := by
  decide

/-- Each form of a two-operand instruction checks its r/m operand. -/
theorem test_wf_forms :
    (AluForm.wf p0 (.rmImm .word (.mem (.abs32 0)) 0) || AluForm.wf p0 (.rmImm8 .word (.mem (.abs32 0)) 0) ||
      AluForm.wf p0 (.rmReg .word (.mem (.abs32 0)) .eax) || AluForm.wf p0 (.regRm .word .eax (.mem (.abs32 0))) ||
      TestForm.wf p0 (.rmImm .word (.mem (.abs32 0)) 0) || TestForm.wf p0 (.rmReg .word (.mem (.abs32 0)) .eax))
      = false := by decide

/-! ## One step

The common start of `95_test_vectors.md`: CS = 0100, DS = 0200, SS = 0300, ES = 0400, SP = 0100, EIP = 0. -/

/-- The common start with some general registers. -/
def start (eax ebx ecx edx : Dword) : State :=
  { State.reset with
    regs := { State.reset.regs with eax := eax, ebx := ebx, ecx := ecx, edx := edx, esp := 0x100 }
    segs := ⟨0x400, 0x100, 0x300, 0x200, 0, 0⟩
    eip := 0 }

/-- Bytes placed in memory by the loader. -/
def place (s : State) (a : Nat) (bs : List Byte) : State := { s with mem := s.mem.setBytes a bs }

/-- The state after one step with the bytes of an instruction at CS:EIP. -/
def after (s : State) (bs : List Byte) : Option State :=
  match step (place s s.codeAddr bs) with
  | .next t => some t
  | _ => none

/-- The state after one step when there is one, else a state nothing is expected of. -/
def ran (s : State) (bs : List Byte) : State := (after s bs).getD { s with shutdown := true, eip := 0xDEAD }

def State.withCarry (s : State) : State := { s with flags := { s.flags with cf := true } }
def State.withZero (s : State) : State := { s with flags := { s.flags with zf := true } }
def State.withIf (s : State) : State := { s with flags := { s.flags with ief := true } }

/-- OF SF ZF AF PF CF. -/
def status (t : State) : List Bool := [t.flags.ovf, t.flags.sf, t.flags.zf, t.flags.af, t.flags.pf, t.flags.cf]

/-- OF SF ZF PF CF. -/
def statusNoAf (t : State) : List Bool := [t.flags.ovf, t.flags.sf, t.flags.zf, t.flags.pf, t.flags.cf]

/-- V-AR-2 -/
theorem test_add_wraps : let t := ran (start 0xFF 1 0 0) [0x00, 0xD8]; t.reg .eax .byte = 0 ∧ status t = [false, false, true, true, true, true] ∧ t.eip = 2 := by decide

/-- V-AR-7 -/
theorem test_add_imm8_extends : let t := ran (start 0x1234 0 0 0) [0x83, 0xC0, 0xFE]; t.regs.eax = 0x1232 ∧ status t = [false, false, false, true, false, true] ∧ t.eip = 3 := by decide

/-- V-AR-12 -/
theorem test_adc_carry_in : let t := ran (State.withCarry (start 0xFFFF 0xFFFF 0 0)) [0x11, 0xD8]; t.regs.eax = 0xFFFF ∧ status t = [false, true, false, true, true, true] := by decide

/-- V-AR-11 -/
theorem test_adc_byte : let t := ran (State.withCarry (start 0x7F 0 0 0)) [0x14, 0x00]; t.reg .eax .byte = 0x80 ∧ status t = [true, true, false, true, false, false] := by decide

/-- V-AR-20 -/
theorem test_sub_borrows : let t := ran (start 3 5 0 0) [0x29, 0xD8]; t.regs.eax = 0xFFFE ∧ status t = [false, true, false, true, false, true] := by decide

/-- V-AR-15 -/
theorem test_sub_overflow : let t := ran (start 0x80 0 0 0) [0x2C, 0x01]; t.reg .eax .byte = 0x7F ∧ status t = [true, false, false, true, false, false] := by decide

/-- V-AR-24 -/
theorem test_sbb_borrow_in : let t := ran (State.withCarry (start 0x80 0x7F 0 0)) [0x18, 0xD8]; t.reg .eax .byte = 0 ∧ status t = [true, false, true, true, true, false] := by decide

/-- V-AR-21 -/
theorem test_cmp_writes_flags_only : let t := ran (start 0 0x80000000 0 0) [0x66, 0x39, 0xD8]; t.regs.eax = 0 ∧ status t = [true, true, false, false, true, true] ∧ t.eip = 3 := by decide

/-- V-AR-28 -/
theorem test_inc_keeps_carry : let t := ran (State.withCarry (start 0xFFFF 0 0 0)) [0x40]; t.regs.eax = 0 ∧ status t = [false, false, true, true, true, true] ∧ t.eip = 1 := by decide

/-- V-AR-27 -/
theorem test_inc_rm : let t := ran (start 0x7F 0 0 0) [0xFE, 0xC0]; t.reg .eax .byte = 0x80 ∧ status t = [true, true, false, true, false, false] := by decide

/-- V-AR-31 -/
theorem test_dec_rm : let t := ran (start 0x80 0 0 0) [0xFE, 0xC8]; t.reg .eax .byte = 0x7F ∧ status t = [true, false, false, true, false, false] := by decide

/-- V-AR-33 -/
theorem test_dec_reg : let t := ran (start 0x8000 0 0 0) [0x48]; t.regs.eax = 0x7FFF ∧ status t = [true, false, false, true, true, false] := by decide

/-- V-AR-35 -/
theorem test_neg_most_negative : let t := ran (start 0x80 0 0 0) [0xF6, 0xD8]; t.reg .eax .byte = 0x80 ∧ statusNoAf t = [true, true, false, false, true] := by decide

/-- V-AR-39 -/
theorem test_mul_byte : let t := ran (start 0xC8 3 0 0) [0xF6, 0xE3]; t.regs.eax = 0x258 ∧ t.flags.cf = true ∧ t.flags.ovf = true := by decide

/-- V-AR-42 -/
theorem test_mul_dword : let t := ran (start 0x10000 0x10000 0 0) [0x66, 0xF7, 0xE3]; t.regs.eax = 0 ∧ t.regs.edx = 1 ∧ t.flags.cf = true := by decide

/-- V-AR-44 -/
theorem test_imul_accumulator : let t := ran (start 0x80 0xFF 0 0) [0xF6, 0xEB]; t.regs.eax = 0x80 ∧ t.flags.cf = true := by decide

/-- V-AR-47 -/
theorem test_imul_word : let t := ran (start 0xFFFF 2 0 0) [0xF7, 0xEB]; t.regs.edx = 0xFFFF ∧ t.regs.eax = 0xFFFE ∧ t.flags.cf = false := by decide

/-- V-AR-48 -/
theorem test_imul_rrm : let t := ran (start 0x100 0x100 0 0) [0x0F, 0xAF, 0xC3]; t.regs.eax = 0 ∧ t.flags.cf = true := by decide

/-- V-AR-50 -/
theorem test_imul_imm8 : let t := ran (start 0 3 0 0) [0x6B, 0xC3, 0xFE]; t.regs.eax = 0xFFFA ∧ t.flags.cf = false := by decide

/-- V-AR-51 -/
theorem test_imul_imm : let t := ran (start 0 2 0 0) [0x69, 0xC3, 0x00, 0x40]; t.regs.eax = 0x8000 ∧ t.flags.cf = true ∧ t.eip = 4 := by decide

/-- V-AR-54 -/
theorem test_div_byte : let t := ran (start 7 2 0 0) [0xF6, 0xF3]; t.regs.eax = 0x103 ∧ t.eip = 2 := by decide

/-- V-AR-60 -/
theorem test_div_dword : let t := ran (start 5 0x10 0 1) [0x66, 0xF7, 0xF3]; t.regs.eax = 0x10000000 ∧ t.regs.edx = 5 := by decide

/-- V-AR-61, T2 -/
theorem test_idiv_truncates : let t := ran (start 0xFFF7 4 0 0) [0xF6, 0xFB]; t.regs.eax = 0xFFFE := by decide

/-- V-AR-66 -/
theorem test_idiv_word : let t := ran (start 0xFFF7 4 0 0xFFFF) [0xF7, 0xFB]; t.regs.eax = 0xFFFE ∧ t.regs.edx = 0xFFFF := by decide

/-- V-LG-8 -/
theorem test_and_imm8 : let t := ran (start 0x1234 0 0 0) [0x83, 0xE0, 0xF0]; t.regs.eax = 0x1230 ∧ statusNoAf t = [false, false, false, true, false] := by decide

/-- V-LG-2 -/
theorem test_or : let t := ran (start 1 0 0 0) [0x0C, 0x80]; t.regs.eax = 0x81 ∧ statusNoAf t = [false, true, false, true, false] := by decide

/-- V-LG-3 -/
theorem test_xor_clears : let t := ran (State.withCarry (start 0x1234 0 0 0)) [0x31, 0xC0]; t.regs.eax = 0 ∧ statusNoAf t = [false, false, true, true, false] := by decide

/-- V-LG-4 -/
theorem test_test : let t := ran (start 0xFE 0 0 0) [0xA8, 0x01]; t.regs.eax = 0xFE ∧ statusNoAf t = [false, false, true, true, false] := by decide

/-- V-LG-6 -/
theorem test_not : let t := ran (State.withCarry (start 0x55 0 0 0)) [0xF6, 0xD0]; t.regs.eax = 0xAA ∧ status t = [false, false, false, false, false, true] := by decide

/-- V-BT-2 -/
theorem test_bt_register : let t := ran (start 0x8001 0x11 0 0) [0x0F, 0xA3, 0xD8]; t.flags.cf = false ∧ t.regs.eax = 0x8001 := by decide

/-- V-BT-6 -/
theorem test_bt_memory_negative : let t := ran (place (start 0xFFFF 0x100 0 0) 0x20FE [0x00, 0x80]) [0x0F, 0xA3, 0x07]; t.flags.cf = true := by decide

/-- V-BT-3 -/
theorem test_bt_imm : let t := ran (start 2 0 0 0) [0x0F, 0xBA, 0xE0, 0x11]; t.flags.cf = true := by decide

/-- T1 -/
theorem test_sal_by_one : let t := ran (start 0x8888888F 0 0 0) [0x66, 0xD1, 0xE0]; t.regs.eax = 0x1111111E ∧ statusNoAf t = [true, false, false, true, true] := by decide

/-- V-SH-6: nothing written, CF unchanged -/
theorem test_sal_by_zero : let t := ran (State.withCarry (start 0xFF 0 0 0)) [0xC0, 0xE0, 0x20]; t.regs.eax = 0xFF ∧ t.flags.cf = true := by decide

/-- V-SH-8 -/
theorem test_shr_by_one : let t := ran (start 0x80 0 0 0) [0xD0, 0xE8]; t.regs.eax = 0x40 ∧ statusNoAf t = [true, false, false, false, false] := by decide

/-- V-SH-18 -/
theorem test_sar_by_two : let t := ran (start 0xFFFFFFF7 0 0 0) [0x66, 0xC1, 0xF8, 0x02]; t.regs.eax = 0xFFFFFFFD ∧ t.flags.cf = true ∧ t.flags.sf = true := by decide

/-- V-SH-15 -/
theorem test_sar_past_width : let t := ran (start 0x80 0 8 0) [0xD2, 0xF8]; t.regs.eax = 0xFF ∧ t.flags.cf = true := by decide

/-- V-RO-5 -/
theorem test_rol : let t := ran (start 0x1234 0 0 0) [0xC1, 0xC0, 0x04]; t.regs.eax = 0x2341 ∧ t.flags.cf = true := by decide

/-- V-RO-9 -/
theorem test_ror : let t := ran (start 0x81 0 0 0) [0xD0, 0xC8]; t.regs.eax = 0xC0 ∧ t.flags.cf = true ∧ t.flags.ovf = false := by decide

/-- V-RO-13 -/
theorem test_rcl : let t := ran (start 0x80 0 0 0) [0xD0, 0xD0]; t.regs.eax = 0 ∧ t.flags.cf = true ∧ t.flags.ovf = true := by decide

/-- V-RO-17 -/
theorem test_rcl_full_circle : let t := ran (State.withCarry (start 0x81 0 9 0)) [0xD2, 0xD0]; t.regs.eax = 0x81 ∧ t.flags.cf = true := by decide

/-- V-RO-19 -/
theorem test_rcr : let t := ran (State.withCarry (start 1 0 0 0)) [0xD0, 0xD8]; t.regs.eax = 0x80 ∧ t.flags.cf = true ∧ t.flags.ovf = true := by decide

/-- V-DM-4 -/
theorem test_mov_rm_r : let t := ran (start 0x1111 0x2222 0 0) [0x89, 0xD8]; t.regs.eax = 0x2222 := by decide

/-- V-DM-5 -/
theorem test_mov_r_rm : let t := ran (start 0x1111 0x2222 0 0) [0x8B, 0xD8]; t.regs.ebx = 0x1111 := by decide

/-- V-DM-3 -/
theorem test_mov_high_byte : let t := ran (start 0x12345678 0 0 0) [0xB4, 0x99]; t.regs.eax = 0x12349978 := by decide

/-- V-DM-2 -/
theorem test_mov_word_keeps_upper : let t := ran (start 0x12345678 0 0 0) [0xB8, 0xCD, 0xAB]; t.regs.eax = 0x1234ABCD := by decide

/-- R202: DS to AX, the upper half kept -/
theorem test_mov_rm_sreg : let t := ran (start 0xFFFF0000 0 0 0) [0x8C, 0xD8]; t.regs.eax = 0xFFFF0200 := by decide

/-- R203, R413 -/
theorem test_mov_ss_opens_window : let t := ran (start 0x500 0 0 0) [0x8E, 0xD0]; t.segs.ss = 0x500 ∧ t.inhibit = true ∧ t.inhibitMaskable = false := by decide

/-- V-DM-6 -/
theorem test_mov_acc_moffs : let t := ran (place (start 0 0 0 0) 0x2010 [0x34, 0x12]) [0xA1, 0x10, 0x00]; t.regs.eax = 0x1234 := by decide

/-- E30 -/
theorem test_mov_moffs_acc : let t := ran (start 0xBEEF 0 0 0) [0xA3, 0x00, 0x02]; t.mem.read 0x2200 .word = 0xBEEF := by decide

/-- E14 -/
theorem test_mov_rm_imm : let t := ran (start 0 0 0 0) [0xC6, 0x06, 0x00, 0x02, 0x7F]; t.mem.get 0x2200 = 0x7F ∧ t.eip = 5 := by decide

/-- V-DM-7 -/
theorem test_xchg_memory : let t := ran (place (start 0xABCD 0x10 0 0) 0x2010 [0x34, 0x12]) [0x87, 0x07]; t.regs.eax = 0x1234 ∧ t.mem.read 0x2010 .word = 0xABCD := by decide

/-- V-DM-8 -/
theorem test_xchg_acc : let t := ran (start 1 2 0 0) [0x93]; t.regs.eax = 2 ∧ t.regs.ebx = 1 := by decide

/-- V-DM-9 -/
theorem test_push_sp : let t := ran (start 0 0 0 0) [0x54]; t.regs.esp = 0xFE ∧ t.mem.read 0x30FE .word = 0x100 := by decide

/-- V-DM-13 -/
theorem test_push_dword : let t := ran (start 0x12345678 0 0 0) [0x66, 0x50]; t.regs.esp = 0xFC ∧ t.mem.read 0x30FC .dword = 0x12345678 := by decide

/-- R210 -/
theorem test_push_rm : let t := ran (place (start 0 0 0 0) 0x2200 [0x34, 0x12]) [0xFF, 0x36, 0x00, 0x02]; t.mem.read 0x30FE .word = 0x1234 ∧ t.regs.esp = 0xFE := by decide

/-- V-DM-15 -/
theorem test_push_imm : let t := ran (start 0 0 0 0) [0x68, 0x34, 0x12]; t.mem.read 0x30FE .word = 0x1234 := by decide

/-- V-DM-16 -/
theorem test_push_sreg : let t := ran (start 0 0 0 0) [0x1E]; t.regs.esp = 0xFE ∧ t.mem.read 0x30FE .word = 0x200 := by decide

/-- V-DM-10 -/
theorem test_pop_sp : let t := ran (place (start 0 0 0 0) 0x3100 [0x34, 0x12]) [0x5C]; t.regs.esp = 0x1234 := by decide

/-- V-DM-17 -/
theorem test_pop_ss : let t := ran (place (start 0 0 0 0) 0x3100 [0x00, 0x05]) [0x17]; t.segs.ss = 0x500 ∧ t.regs.esp = 0x102 ∧ t.inhibit = true := by decide

/-- V-DM-18 -/
theorem test_pop_memory : let t := ran (place (start 0 0 0 0) 0x3100 [0x78, 0x56]) [0x8F, 0x06, 0x00, 0x02]; t.regs.esp = 0x102 ∧ t.mem.read 0x2200 .word = 0x5678 := by decide

/-- T4 -/
theorem test_movsx8 : let t := ran (start 0x12345678 0xF6 0 0) [0x0F, 0xBE, 0xC3]; t.regs.eax = 0x1234FFF6 := by decide

/-- V-DM-21 -/
theorem test_movsx16 : let t := ran (start 0 0x8000 0 0) [0x66, 0x0F, 0xBF, 0xC3]; t.regs.eax = 0xFFFF8000 := by decide

/-- T4 -/
theorem test_movzx8 : let t := ran (start 0xFFFFFFFF 0xF6 0 0) [0x66, 0x0F, 0xB6, 0xC3]; t.regs.eax = 0xF6 := by decide

/-- E16 -/
theorem test_movzx16 : let t := ran (start 0 0xFFFF8001 0 0) [0x66, 0x0F, 0xB7, 0xC3]; t.regs.eax = 0x8001 := by decide

/-- V-DM-22 -/
theorem test_cwd : let t := ran (start 0x8000 0 0 0x12340000) [0x99]; t.regs.edx = 0x1234FFFF ∧ t.regs.eax = 0x8000 := by decide

/-- V-DM-23 -/
theorem test_cdq : let t := ran (start 0x80000000 0 0 0) [0x66, 0x99]; t.regs.edx = 0xFFFFFFFF := by decide

/-- The common start with given flags. -/
def flagged (f : EFlags) : State := { start 0 0 0 0 with flags := f }

/-- R320, R322: `70 10` with OF alone 1 -/
theorem test_jo : let t := ran (flagged { State.reset.flags with ovf := true }) [0x70, 0x10]; t.eip = 0x12 := by decide

/-- R320, R322: `71 10` with OF alone 1 -/
theorem test_jno : let t := ran (flagged { State.reset.flags with ovf := true }) [0x71, 0x10]; t.eip = 2 := by decide

/-- R320, R322: `72 10` with CF alone 1 -/
theorem test_jb : let t := ran (flagged { State.reset.flags with cf := true }) [0x72, 0x10]; t.eip = 0x12 := by decide

/-- R320, R322: `73 10` with CF alone 1 -/
theorem test_jae : let t := ran (flagged { State.reset.flags with cf := true }) [0x73, 0x10]; t.eip = 2 := by decide

/-- R320, R322: `74 10` with ZF alone 1 -/
theorem test_je : let t := ran (flagged { State.reset.flags with zf := true }) [0x74, 0x10]; t.eip = 0x12 := by decide

/-- R320, R322: `75 10` with ZF alone 1 -/
theorem test_jne : let t := ran (flagged { State.reset.flags with zf := true }) [0x75, 0x10]; t.eip = 2 := by decide

/-- R320, R322: `76 10` with ZF alone 1 -/
theorem test_jbe : let t := ran (flagged { State.reset.flags with zf := true }) [0x76, 0x10]; t.eip = 0x12 := by decide

/-- R320, R322: `77 10` with CF alone 1 -/
theorem test_ja : let t := ran (flagged { State.reset.flags with cf := true }) [0x77, 0x10]; t.eip = 2 := by decide

/-- R320, R322: `78 10` with SF alone 1 -/
theorem test_js : let t := ran (flagged { State.reset.flags with sf := true }) [0x78, 0x10]; t.eip = 0x12 := by decide

/-- R320, R322: `79 10` with SF alone 1 -/
theorem test_jns : let t := ran (flagged { State.reset.flags with sf := true }) [0x79, 0x10]; t.eip = 2 := by decide

/-- R320, R322: `7A 10` with PF alone 1 -/
theorem test_jp : let t := ran (flagged { State.reset.flags with pf := true }) [0x7A, 0x10]; t.eip = 0x12 := by decide

/-- R320, R322: `7B 10` with PF alone 1 -/
theorem test_jnp : let t := ran (flagged { State.reset.flags with pf := true }) [0x7B, 0x10]; t.eip = 2 := by decide

/-- R320, R322: `7C 10` with OF alone 1 -/
theorem test_jl : let t := ran (flagged { State.reset.flags with ovf := true }) [0x7C, 0x10]; t.eip = 0x12 := by decide

/-- R320, R322: `7D 10` with SF alone 1 -/
theorem test_jge : let t := ran (flagged { State.reset.flags with sf := true }) [0x7D, 0x10]; t.eip = 2 := by decide

/-- R320, R322: `7E 10` with OF alone 1 -/
theorem test_jle : let t := ran (flagged { State.reset.flags with ovf := true }) [0x7E, 0x10]; t.eip = 0x12 := by decide

/-- R320, R322: `7F 10` with SF alone 1 -/
theorem test_jg : let t := ran (flagged { State.reset.flags with sf := true }) [0x7F, 0x10]; t.eip = 2 := by decide

/-- V-CT-16 -/
theorem test_jcc_rel16 : let t := ran (start 0 0 0 0) [0x0F, 0x85, 0x00, 0x01]; t.eip = 0x104 := by decide

/-- R154, R301, R320: a term under another name of an encoding means what the first name means. -/
theorem test_aliases (s : State) (t : Rel) :
    exec (.shl p0 .byte (.reg .eax) .one) s = exec (.sal p0 .byte (.reg .eax) .one) s ∧
    exec (.jc p0 t) s = exec (.jb p0 t) s ∧ exec (.jnae p0 t) s = exec (.jb p0 t) s ∧
    exec (.jnb p0 t) s = exec (.jae p0 t) s ∧ exec (.jnc p0 t) s = exec (.jae p0 t) s ∧
    exec (.jz p0 t) s = exec (.je p0 t) s ∧ exec (.jnz p0 t) s = exec (.jne p0 t) s ∧
    exec (.jna p0 t) s = exec (.jbe p0 t) s ∧ exec (.jnbe p0 t) s = exec (.ja p0 t) s ∧
    exec (.jpe p0 t) s = exec (.jp p0 t) s ∧ exec (.jpo p0 t) s = exec (.jnp p0 t) s ∧
    exec (.jnge p0 t) s = exec (.jl p0 t) s ∧ exec (.jnl p0 t) s = exec (.jge p0 t) s ∧
    exec (.jng p0 t) s = exec (.jle p0 t) s ∧ exec (.jnle p0 t) s = exec (.jg p0 t) s :=
  ⟨rfl, rfl, rfl, rfl, rfl, rfl, rfl, rfl, rfl, rfl, rfl, rfl, rfl, rfl, rfl⟩

/-- V-CT-13 -/
theorem test_jmp_wraps : let t := ran (start 0 0 0 0) [0xEB, 0xFC]; t.eip = 0xFFFE := by decide

/-- V-CT-17 -/
theorem test_jmp_rel32_masked : let t := ran (start 0 0 0 0) [0x66, 0xE9, 0x00, 0x00, 0x01, 0x00]; t.eip = 6 := by decide

/-- V-CT-19 -/
theorem test_jmp_rm : let t := ran (place (start 0 0x10 0 0) 0x2010 [0x00, 0x03]) [0xFF, 0x27]; t.eip = 0x300 := by decide

/-- V-CT-20 -/
theorem test_jmp_ptr : let t := ran (start 0 0 0 0) [0xEA, 0xF0, 0xFF, 0x00, 0xF0]; t.eip = 0xFFF0 ∧ t.segs.cs = 0xF000 := by decide

/-- V-CT-21 -/
theorem test_jmp_far_memory : let t := ran (place (start 0 0x10 0 0) 0x2010 [0x10, 0x00, 0x00, 0x05]) [0xFF, 0x2F]; t.eip = 0x10 ∧ t.segs.cs = 0x500 := by decide

/-- V-CT-23 -/
theorem test_call_rel : let t := ran { start 0 0 0 0 with eip := 0x10 } [0xE8, 0xED, 0xFF]; t.eip = 0 ∧ t.regs.esp = 0xFE ∧ t.mem.read 0x30FE .word = 0x13 := by decide

/-- V-CT-24 -/
theorem test_call_sp : let t := ran (start 0 0 0 0) [0xFF, 0xD4]; t.eip = 0x100 ∧ t.regs.esp = 0xFE ∧ t.mem.read 0x30FE .word = 2 := by decide

/-- V-CT-25 -/
theorem test_call_ptr : let t := ran { start 0 0 0 0 with eip := 4 } [0x9A, 0x00, 0x00, 0x00, 0x05]; t.segs.cs = 0x500 ∧ t.eip = 0 ∧ t.regs.esp = 0xFC ∧ t.mem.read 0x30FE .word = 0x100 ∧ t.mem.read 0x30FC .word = 9 := by decide

/-- R332 -/
theorem test_call_far_memory : let t := ran (place (start 0 0 0 0) 0x2200 [0x10, 0x00, 0x00, 0x05]) [0xFF, 0x1E, 0x00, 0x02]; t.segs.cs = 0x500 ∧ t.eip = 0x10 ∧ t.mem.read 0x30FC .word = 4 := by decide

/-- V-CT-27 -/
theorem test_ret_far : let t := ran (place (start 0 0 0 0) 0x3100 [0x09, 0x00, 0x00, 0x05]) [0xCB]; t.eip = 9 ∧ t.segs.cs = 0x500 ∧ t.regs.esp = 0x104 := by decide

/-- V-CT-28 -/
theorem test_ret_far_imm : let t := ran (place (start 0 0 0 0) 0x3100 [0x09, 0x00, 0x00, 0x05]) [0xCA, 0x04, 0x00]; t.eip = 9 ∧ t.segs.cs = 0x500 ∧ t.regs.esp = 0x108 := by decide

/-- V-CT-29 -/
theorem test_ret_near : let t := ran (place (start 0 0 0 0) 0x3100 [0x13, 0x00]) [0xC3]; t.eip = 0x13 ∧ t.segs.cs = 0x100 ∧ t.regs.esp = 0x102 := by decide

/-- V-CT-30 -/
theorem test_ret_near_imm : let t := ran (place (start 0 0 0 0) 0x3100 [0x13, 0x00]) [0xC2, 0x02, 0x00]; t.eip = 0x13 ∧ t.regs.esp = 0x104 := by decide

/-- V-CT-31 -/
theorem test_iret : let t := ran (place (start 0 0 0 0) 0x3100 [0x05, 0x00, 0x00, 0x01, 0x03, 0x0A]) [0xCF]; t.eip = 5 ∧ t.segs.cs = 0x100 ∧ t.regs.esp = 0x106 ∧ status t = [true, false, false, false, false, true] ∧ t.flags.ief = true := by decide

/-- V-FL-1 -/
theorem test_stc : let t := ran (start 0 0 0 0) [0xF9]; status t = [false, false, false, false, false, true] ∧ t.eip = 1 := by decide

/-- X14, V-FL-1 -/
theorem test_clc : let t := ran (State.withCarry (start 0 0 0 0)) [0x66, 0xF8]; status t = [false, false, false, false, false, false] ∧ t.eip = 2 := by decide

/-- V-FL-2 -/
theorem test_cmc : let t := ran (start 0 0 0 0) [0xF5]; status t = [false, false, false, false, false, true] := by decide

/-- V-FL-3 -/
theorem test_cli : let t := ran (State.withIf (start 0 0 0 0)) [0xFA]; t.flags.ief = false ∧ t.recognised = none := by decide

/-- V-FL-4 -/
theorem test_sti_opens_window : let t := ran (start 0 0 0 0) [0xFB]; t.flags.ief = true ∧ t.inhibitMaskable = true ∧ t.inhibit = false := by decide

/-- V-FL-5 -/
theorem test_sti_when_set : let t := ran (State.withIf (start 0 0 0 0)) [0xFB]; t.flags.ief = true ∧ t.inhibitMaskable = false := by decide

/-- V-IO-1 -/
theorem test_in_imm : let t := ran { start 0x12345678 0 0 0 with ioIn := [0x1C] } [0xE4, 0x60]; t.regs.eax = 0x1234561C ∧ t.ioTrace = [⟨.input, 0x60, .byte, 0x1C⟩] := by decide

/-- V-IO-2 -/
theorem test_in_dx : let t := ran { start 0 0 0 0x3F8 with ioIn := [0x44332211] } [0x66, 0xED]; t.regs.eax = 0x44332211 ∧ t.ioTrace = [⟨.input, 0x3F8, .dword, 0x44332211⟩] := by decide

/-- V-IO-3 -/
theorem test_out_imm : let t := ran (start 0xBEEF 0 0 0) [0xE7, 0x10]; t.ioTrace = [⟨.output, 0x10, .word, 0xBEEF⟩] ∧ t.eip = 2 := by decide

/-- V-IO-4 -/
theorem test_out_dx : let t := ran (start 0x41 0 0 0xABCD03F8) [0xEE]; t.ioTrace = [⟨.output, 0x3F8, .byte, 0x41⟩] := by decide

/-- V-LEA-3 -/
theorem test_lea_truncates : let t := ran (start 0 0x11000 0 0) [0x67, 0x8D, 0x04, 0x9B]; t.regs.eax = 0x5000 := by decide

/-- V-LEA-4 -/
theorem test_lea_extends : let t := ran { start 0 0x1000 0 0 with regs := { (start 0 0x1000 0 0).regs with esi := 0x234 } } [0x66, 0x8D, 0x00]; t.regs.eax = 0x1234 := by decide

/-- V-NOP-1 -/
theorem test_nop : let t := ran (start 1 0 0 0) [0x90]; t.regs = (start 1 0 0 0).regs ∧ t.eip = 1 ∧ t.cycles = 8 := by decide

/-! ## Exceptions, interrupts, stops -/

/-- V-INT-1: AX unchanged, the handler entered (the frame in memory holds free bits, which nothing evaluates) -/
theorem test_divide_error : let t := ran (State.withIf (place { start 0x64 0 0 0 with eip := 5 } 0 [0x00, 0x00, 0x00, 0x06])) [0xF6, 0xF3]; t.segs.cs = 0x600 ∧ t.eip = 0 ∧ t.regs.esp = 0xFA ∧ t.regs.eax = 0x64 ∧ t.flags.ief = false := by decide

/-- V-INT-2 -/
theorem test_operand_past_limit : let t := ran (place { start 0 0xFFFF 0 0 with eip := 0x10 } 0x34 [0x20, 0x00, 0x00, 0x07]) [0x8B, 0x07]; t.segs.cs = 0x700 ∧ t.eip = 0x20 ∧ t.regs.eax = 0 ∧ t.regs.esp = 0xFA := by decide

/-- V-INT-3 -/
theorem test_lea_register : let t := ran (place (start 0 0 0 0) 0x18 [0x40, 0x00, 0x00, 0x07]) [0x8D, 0xC0]; t.segs.cs = 0x700 ∧ t.eip = 0x40 ∧ t.regs.esp = 0xFA := by decide

/-- V-INT-4 -/
theorem test_intr_taken : let t := ran (State.withIf (place { start 0 0 0 0 with eip := 0x42, intr := some 0x20 } 0x80 [0x00, 0x10, 0x00, 0x08])) [0x90]; t.segs.cs = 0x800 ∧ t.eip = 0x1000 ∧ t.flags.ief = false ∧ t.intr = some 0x20 := by decide

/-- V-INT-7, V-INT-10 -/
theorem test_nmi_before_intr : let t := ran (place { start 0 0 0 0 with intr := some 0x20, nmi := 2 } 8 [0x00, 0x10, 0x00, 0x08]) [0x90]; t.segs.cs = 0x800 ∧ t.nmi = 1 := by decide

/-- V-INT-7 -/
theorem test_window_holds_nmi : let t := ran { start 0 0x50 0 0 with nmi := 1, inhibit := true } [0x8B, 0xE3]; t.regs.esp = 0x50 ∧ t.nmi = 1 ∧ t.inhibit = false := by decide

/-- V-INT-8, with SP = 5 and no memory where the frame's first two words lie. -/
theorem test_interrupt_without_stack : let t := ran { start 0 0 0 0 with nmi := 1, regs := { State.reset.regs with esp := 5 }, present := [⟨0, 0x2000⟩] } [0x90]; t.shutdown = true ∧ t.regs.esp = 5 ∧ t.mem = (place (start 0 0 0 0) 0x1000 [0x90]).mem := by decide

/-- V-CT-26: SP = 3, all four bytes checked first, with no memory where the first word lies. -/
theorem test_far_call_without_stack : let t := ran { start 0 0 0 0 with regs := { State.reset.regs with esp := 3 }, present := [⟨0, 0x2000⟩] } [0x9A, 0, 0, 0, 5]; t.shutdown = true ∧ t.regs.esp = 3 ∧ t.segs.cs = 0x100 ∧ t.eip = 0 := by decide

/-- R103: MOV loads a word from a device, the lower byte first, and memory is not looked at. -/
theorem test_device_load : let t := ran { place (start 0 0 0 0) 0x2000 [1, 2] with mmio := [⟨0x2000, 16⟩], deviceIn := [0x34, 0x12, 0x56] } [0xA1, 0x00, 0x00]; t.regs.eax = 0x1234 ∧ t.deviceIn = [0x56] ∧ t.deviceTrace = [⟨.input, 0x2000, 0x34⟩, ⟨.input, 0x2001, 0x12⟩] := by decide

/-- R103, R88: a read-modify-write instruction reads the device and then writes to it. -/
theorem test_device_add : let t := ran { start 0x11 0 0 0 with mmio := [⟨0x2000, 16⟩], deviceIn := [0x34] } [0x00, 0x06, 0x00, 0x00]; t.deviceTrace = [⟨.input, 0x2000, 0x34⟩, ⟨.output, 0x2000, 0x45⟩] ∧ t.mem.get 0x2000 = 0 := by decide

/-- R89, R103: BT reads every byte of the word. -/
theorem test_device_bt : let t := ran { start 0 0 0 0 with mmio := [⟨0x2000, 16⟩], deviceIn := [0x00, 0x80] } [0x0F, 0xBA, 0x26, 0x00, 0x00, 0x0F]; t.flags.cf = true ∧ t.deviceTrace.length = 2 := by decide

/-- R103: code in a device is fetched from it, byte by byte, and no byte beyond the instruction is read. -/
theorem test_device_fetch : (match step { start 0 0 0 0 with mmio := [⟨0x1000, 16⟩], deviceIn := [0xB8, 0x34, 0x12, 0x90] } with
    | .next t => decide (t.regs.eax = 0x1234) && decide (t.eip = 3) && decide (t.deviceIn = [0x90]) &&
        decide (t.deviceTrace = [⟨.input, 0x1000, 0xB8⟩, ⟨.input, 0x1001, 0x34⟩, ⟨.input, 0x1002, 0x12⟩])
    | _ => false) = true := by decide

/-- R463, log entry 13: a device just past the instruction is not touched. -/
theorem test_device_past_instruction : let t := ran { start 0 0 0 0 with mmio := [⟨0x1001, 16⟩], deviceIn := [7] } [0x90]; t.eip = 1 ∧ t.deviceIn = [7] ∧ t.deviceTrace = [] := by decide

/-- Log entry 15: an undefined /6 whose immediate is not among the bytes, and with it. -/
theorem test_undefined_digit_cut_short : decode [0xC0, 0xF0] = .error .needMore ∧ decode [0xC0, 0xF0, 0x01] = .error .undefinedOpcode := by decide

/-- Log entry 15: 66H before FF /2 and before 8E is judged after the operand, and before E8 at once. -/
theorem test_opsize_cut_short : decode [0x66, 0xFF, 0x16] = .error .needMore ∧ decode [0x66, 0x8E, 0x1E] = .error .needMore ∧ decode [0x66, 0xE8] = .error .opsize32ControlTransfer := by decide

/-- R407: an instruction that raises an exception leaves no I/O behind. -/
theorem test_device_divide_error : let t := ran { start 0 0 0 0 with mmio := [⟨0x2000, 16⟩], deviceIn := [0] } [0xF6, 0x36, 0x00, 0x00]; t.regs.esp = 0xFA ∧ t.deviceIn = [0] ∧ t.deviceTrace = [] := by decide

/-- V-DM-12 -/
theorem test_push_without_stack : let t := ran { start 0 0 0 0 with regs := { State.reset.regs with esp := 1 } } [0x50]; t.shutdown = true ∧ t.regs.esp = 1 ∧ t.eip = 0 := by decide

/-- R452: memory is kept -/
theorem test_reset_signal : let t := ran (place { start 1 2 3 4 with resetSignal := true, shutdown := true } 0x500 [0xAB]) [0x90]; t.shutdown = false ∧ t.regs.eax = 0 ∧ t.mem.get 0x500 = 0xAB ∧ t.eip = 0xFFF0 ∧ t.segs.cs = 0xF000 := by decide

/-- What a step answers when it does not go on. -/
def stops (s : State) (bs : List Byte) : Option (Option Refusal) :=
  match step (place s s.codeAddr bs) with
  | .next _ => none
  | .fault .shutdown => some none
  | .refused r => some (some r)

/-- R113, U13: `mov cs:[4],al` stores to the device byte at 1004H, which the next instruction would be fetched
from; and a device byte that nothing stored to is fetched. -/
theorem test_device_store_then_fetch :
    let s : State := { start 0 0 0 0 with mmio := [⟨0x1004, 1⟩], deviceIn := [0x90] }
    stops s [0x2E, 0xA2, 0x04, 0x00] = none ∧
    stops (ran s [0x2E, 0xA2, 0x04, 0x00]) [] = some (some .selfModifyingCode) ∧
    stops { s with eip := 4 } [] = none := by decide

/-- Each stop under its own name: U4 to U9, U12 to U14, D5, R419. -/
theorem test_stops :
    let s := start 0 0 0 0xFFFF
    stops s [0x66, 0xCB] = some (some .opsize32ControlTransfer) ∧ stops s [0xF4] = some (some .undefinedOpcode) ∧
    stops s [0x8E, 0xC8] = some (some .badSreg) ∧ stops s [0xFF, 0xDB] = some (some .farIndirectRegister) ∧
    stops s [0xF3, 0x90] = some (some .badPrefix) ∧ stops s [0x66, 0x8E, 0xD8] = some (some .opsizeOnMovSreg) ∧
    stops s [0x67, 0x8F, 0x04, 0x24] = some (some .popMemEspBase) ∧ stops s [0xEF] = some (some .ioPast64K) ∧
    stops { s with stored := [0x1000] } [0x90] = some (some .selfModifyingCode) ∧
    stops { s with flags := { s.flags with tf := true } } [0x90] = some (some .tfSet) ∧
    stops { s with present := [⟨0x1000, 16⟩] } [0xA0, 0x00, 0x00] = some (some (.memNotPresent 0x2000)) ∧
    stops { s with shutdown := true } [0x90] = some none := by decide

/-- V-MEM-5, V-MEM-7: offset FFFF is legal for a byte, and a 16-bit address wraps. -/
theorem test_address_wraps :
    (start 0 0xFFFF 0 0).addr (.base16 .bx (.d8 2)) = 1 ∧ checkLimit 0xFFFF 1 = .ok () ∧
    checkLimit 0xFFFF 2 = .error (.exc 13) := by decide

/-- V-MEM-1, V-MEM-2. -/
theorem test_linear :
    ({ State.reset with segs := ⟨0, 0, 0, 0x1234, 0, 0⟩ } : State).linear .ds 0x10 = 0x12350 ∧
    ({ State.reset with segs := ⟨0, 0, 0, 0xFFFF, 0, 0⟩ } : State).linear .ds 0xFFFF = 0x10FFEF := by decide

/-- The first instruction after RESET is the one the host places. -/
theorem test_withFetchWord :
    (match step (State.reset.withFetchWord 24 0x1234B8) with
      | .next t => decide (t.regs.eax = 0x1234) && decide (t.eip = 0xFFF3)
      | _ => false) = true := by decide

/-! ## Timing (V-TM-1 to V-TM-11) -/

theorem test_timing (s : State) :
    s.cost (.movRImm p0 .word .eax 0) = 10 ∧ s.cost (.movAccMoffs p0 .word (.o16 0x1234)) = 15 ∧
    s.cost (.xchgRmR p0 .word (.mem (.base16 .bx .none)) .eax) = 15 ∧
    s.cost (.pushRm p0 (.mem (.base16 .bx (.d8 2)))) = 17 ∧ s.cost (.mul p0 .byte (.reg .ebx)) = 19 ∧
    s.cost (.mul p0 .word (.reg .ebx)) = 27 ∧ s.cost (.mul p66 .dword (.reg .ebx)) = 43 ∧
    s.cost (.imulRRmImm8 p6766 .eax (.mem (.base32 .ebx .none)) 5) = 50 ∧ s.cost (.inImm p0 .byte 0x60) = 15 ∧
    s.cost (.inDx p0 .byte) = 13 ∧ s.cost (.retFarImm p0 4) = 17 ∧ s.cost (.callMem p0 (.abs16 0x200)) = 17 ∧
    s.cost (.iret p0) = 22 ∧ s.cost (.cmp p0 (.rmReg .word (.mem (.base16 .bx .none)) .eax)) = 13 ∧
    s.cost (.test p0 (.rmReg .word (.mem (.base16 .bx .none)) .eax)) = 13 :=
  ⟨rfl, rfl, rfl, rfl, rfl, rfl, rfl, rfl, rfl, rfl, rfl, rfl, rfl, rfl, rfl⟩

/-! ## The assembler's notation (T13, T15, R160 to R166) -/

theorem test_tasm_numbers :
    tasmNumber ['1', '0'] = some 10 ∧ tasmNumber ['1', '0', 'h'] = some 16 ∧ tasmNumber ['0', 'a', 'h'] = some 10 ∧
    tasmNumber ['1', '0', 'b'] = some 2 ∧ tasmNumber ['a', 'h'] = none := by decide

theorem test_tasm_expression :
    (Expr.bin .mod (.bin .mul (.const 10) (.name ['M'])) (.name ['M'])).value [(['M'], 4)] = some 0 ∧
    (Expr.bin .lt (.un .minus (.const 1)) (.const 1)).value [] = some 1 := by decide

/-- T15: `dd dada1` with dada1 at 0200:0010; and `db 2 dup (5)`. -/
theorem test_tasm_data :
    dataBytes [] .dword [⟨.const 1, .pointer 0x200 0x10⟩] = some [some 0x10, some 0, some 0, some 2] ∧
    dataBytes [] .byte [⟨.const 2, .value (.const 5)⟩] = some [some 5, some 5] := by decide

theorem test_tasm_operands :
    regOfName ['A', 'H'] = some (.byte, .esp) ∧ rel8Fits 2 (-126) = true ∧ rel8Fits 2 130 = false ∧
    MemSyntax.mem [] ⟨some (.const 4), some .ebx, some (.esi, .x2)⟩
      = some (.sib .ebx (some .esi) .x2 (.d32 4)) := by decide

/-! ## Witnesses: for each statement, a state and operands that meet its hypotheses, at a boundary value

`top` reaches the last word of its segments: BX = FFFE, and `stack` sets SP. -/

theorem plain_of {s : State} (hp : s.present = [⟨0, 2 ^ 32⟩]) (hm : s.mmio = []) {a n : Nat}
    (h : a + n ≤ 2 ^ 32) : s.plain a n := by
  intro k hk
  simp only [inRegions, hp, hm, List.any_cons, List.any_nil, Bool.or_false, Bool.and_eq_true, decide_eq_true_eq,
    Nat.zero_le, true_and, Nat.zero_add, and_true]
  omega

/-- An outcome that is a next state. -/
def isNext (o : Host.Outcome State Fault Refusal) : Bool :=
  match o with
  | .next _ => true
  | _ => false

theorem exists_of_isNext {o : Host.Outcome State Fault Refusal} (h : isNext o = true) : ∃ t, o = .next t := by
  cases o with
  | next t => exact ⟨t, rfl⟩
  | fault _ => cases h
  | refused _ => cases h

def bxMem : Mem := .base16 .bx .none

def top : State := start 7 0xFFFE 0 0

def stack (sp : Dword) : State := { top with regs := { top.regs with esp := sp } }

theorem top_reaches : top.reaches p0 (.mem bxMem) .word := ⟨by decide, plain_of rfl rfl (by decide)⟩

theorem top_reaches_byte : (start 7 0xFFFF 0 0).reaches p0 (.mem bxMem) .byte :=
  ⟨by decide, plain_of rfl rfl (by decide)⟩

theorem witness_DecodeEncodeRoundTrip :
    (Instr.add ⟨true, true, some .cs⟩
      (.rmImm .dword (.mem (.sib .eax (some .ecx) .x4 (.d32 0x11223344))) 0x12345678)).WellFormed ∧
    (Instr.jnle p66 (.rel32 0)).WellFormed ∧ (Instr.shl p0 .byte (.reg .edi) (.imm 0xFF)).WellFormed := by
  decide

theorem witness_DecodedIsWellFormed :
    decode [0x90, 0xFF] = .ok (.nop p0, [0xFF]) ∧
    decode [0x67, 0x66, 0x2E, 0x81, 0x84, 0x88, 0x44, 0x33, 0x22, 0x11, 0x78, 0x56, 0x34, 0x12] =
      .ok (.add ⟨true, true, some .cs⟩
        (.rmImm .dword (.mem (.sib .eax (some .ecx) .x4 (.d32 0x11223344))) 0x12345678), []) := by decide

theorem witness_ResetSignalLeavesShutdown :
    ({ top with resetSignal := true, shutdown := true } : State).resetSignal = true := rfl

/-- An INIT_STATE with a byte of memory and the last offset of a segment. -/
theorem witness_InvariantAtReset : InitState.mem { InitState.default with mem := [(5, 1)], ip := 0xFFFF } = [(5, 1)] ∧
    Memory.wf [(5, 1)] = true := by decide

/-- EIP at the last byte of the segment, holding NOP. -/
def lastByte : State := place { top with eip := 0xFFFF } 0x10FFF [0x90]

theorem witness_InvariantKeptByStep : ∃ t, lastByte.Inv ∧ step lastByte = .next t := by
  obtain ⟨t, h⟩ := exists_of_isNext (o := step lastByte) (by decide)
  exact ⟨t, ⟨by decide, by decide⟩, h⟩

/-- NOP at the last byte of the segment, in memory and in a device. -/
theorem witness_StepRunsDecoded :
    let d : State := { lastByte with mmio := [⟨0x10FFF, 1⟩], deviceIn := [0x90, 7] }
    (lastByte.resetSignal = false ∧ lastByte.shutdown = false ∧ lastByte.flags.tf = false ∧
      lastByte.recognised = none ∧ decode lastByte.codeBytes = .ok (.nop p0, []) ∧
      lastByte.checkCode (Instr.nop p0).length = .ok ()) ∧
    lastByte.plain lastByte.codeAddr 1 ∧ d.devices d.codeAddr 1 ∧ d.deviceIn = [0x90] ++ [7] :=
  ⟨by decide, plain_of rfl rfl (by decide), by unfold State.devices; decide, rfl⟩

theorem witness_ShutdownAndTrapFlagStop :
    let s : State := { top with shutdown := true }
    let s' : State := { top with flags := { top.flags with tf := true } }
    s.resetSignal = false ∧ s.shutdown = true ∧
    s'.resetSignal = false ∧ s'.shutdown = false ∧ s'.flags.tf = true := by decide

/-- The first byte of a longer instruction at the last byte of the segment, and EIP just past the segment. -/
theorem witness_FetchPastLimitRaises :
    let s := place { top with eip := 0xFFFF } 0x10FFF [0x03]
    let s' : State := { top with eip := 0x10000 }
    (s.resetSignal = false ∧ s.shutdown = false ∧ s.flags.tf = false ∧ s.recognised = none ∧
      decode s.codeBytes = .error .needMore ∧ s.checkCode s.codeRoom = .ok ()) ∧
    (s'.resetSignal = false ∧ s'.shutdown = false ∧ s'.flags.tf = false ∧ s'.recognised = none ∧
      decode s'.codeBytes = .error .needMore ∧ s'.checkCode s'.codeRoom = .ok ()) := by decide

theorem witness_BoundaryTakesInterrupts :
    let s : State := { top with nmi := 2, intr := some 0xFF }
    let s' : State := { State.withIf top with intr := some 0xFF }
    let s'' : State := { State.withIf top with nmi := 1, intr := some 0xFF, inhibit := true }
    (s.resetSignal = false ∧ s.shutdown = false ∧ s.flags.tf = false ∧ 0 < s.nmi ∧ s.inhibit = false) ∧
    (s'.resetSignal = false ∧ s'.shutdown = false ∧ s'.flags.tf = false ∧ s'.nmi = 0 ∧
      s'.intr = some 0xFF ∧ s'.flags.ief = true ∧ s'.inhibit = false ∧ s'.inhibitMaskable = false) ∧
    (s''.resetSignal = false ∧ s''.shutdown = false ∧ s''.flags.tf = false ∧
      (s''.nmi = 0 ∨ s''.inhibit = true) ∧
      (s''.intr = none ∨ s''.flags.ief = false ∨ s''.inhibit = true ∨ s''.inhibitMaskable = true)) := by
  decide

theorem witness_WindowsHoldInterrupts :
    (top.readRM p0 (.reg .eax) .word = .ok (7, top) ∧
      ∃ t, exec (.movSregRm p0 .ss (.reg .eax)) top = .next t) ∧
    ((stack 0xFFFE).canPop 0 p0.opSize.bytes ∧ ∃ t, exec (.popSreg p0 .ss) (stack 0xFFFE) = .next t) ∧
    (top.flags.ief = false ∧ top.nmi = 0 ∧ ∃ t, exec (.sti p0) top = .next t ∧
      ∃ u, exec (.cli p0) (t.begin (.cli p0)) = .next u) :=
  ⟨⟨by decide, exists_of_isNext (by decide)⟩,
    ⟨⟨by decide, plain_of rfl rfl (by decide)⟩, exists_of_isNext (by decide)⟩, rfl, rfl, _, rfl, _, rfl⟩

theorem witness_RegisterNamesAreViews : Reg.ebx ≠ Reg.eax ∧ Reg.ebx ≠ Reg.esp.byteHome := by decide

theorem witness_MemoryStoresLittleEndian :
    Memory.wf [(5, 1)] = true ∧ 2 ^ 32 - 4 + Width.dword.bytes ≤ 2 ^ 32 ∧ 3 < Width.dword.bytes ∧
    (2 ^ 32 - 5 < 2 ^ 32 - 4 ∨ 2 ^ 32 - 4 + Width.dword.bytes ≤ 2 ^ 32 - 5) := by decide

/-- A byte past the end needs 32-bit addressing, [EBX] with EBX = 10000H; a word, a doubleword and a far
pointer at offset FFFF, FFFD and FFFD; moffs32 at 10000H; and a stack POP m can pop. -/
theorem witness_OperandPastLimitRaises :
    let past := fun (s : State) (m : Mem) (k : Nat) => 0x10000 < (s.addr m).toNat + k
    past (start 0 0x10000 0 0) (.base32 .ebx .none) 1 ∧ past (start 0 0x10000 0 0) (.base32 .ebx .none) Width.byte.bytes ∧
    past (start 0 0xFFFF 0 0) bxMem 2 ∧ past (start 0 0xFFFF 0 0) bxMem Width.word.bytes ∧
    past (start 0 0xFFFD 0 0) bxMem 4 ∧ past (start 0 0xFFFD 0 0) bxMem Width.dword.bytes ∧
    (past (start 0 0xFFFF 0 0) bxMem p0.opSize.bytes ∧ bxMem.espBase = false ∧
      (start 0 0xFFFF 0 0).canPop 0 p0.opSize.bytes) ∧
    0x10000 < (Moffs.o32 0x10000).offset + Width.byte.bytes ∧ 0x10000 < (Moffs.o16 0xFFFF).offset + Width.word.bytes :=
  ⟨by decide, by decide, by decide, by decide, by decide, by decide,
    ⟨by decide, rfl, by decide, plain_of rfl rfl (by decide)⟩, by decide, by decide⟩

theorem witness_ConditionsCompare :
    (subFlags (0x80 : Byte) 1 false).allows top.flags ((subFlags (0x80 : Byte) 1 false).apply top.flags 0) :=
  StatusWrite.allows_apply _ _ _

/-- AddsComplete, SubtractsComplete and LogicCompletes: an operand in memory as destination and as source. -/
theorem witness_AddsComplete :
    top.mem.wf = true ∧ top.reachesForm p0 (.rmReg .word (.mem bxMem) .eax) ∧
    top.reachesForm p0 (.regRm .word .eax (.mem bxMem)) ∧ top.reachesForm p0 (.accImm .word 0xFFFF) :=
  ⟨by decide, ⟨top_reaches, trivial⟩, ⟨trivial, top_reaches⟩, trivial, trivial⟩

theorem witness_SubtractsComplete :
    top.mem.wf = true ∧ top.reachesForm p0 (.rmImm8 .word (.mem bxMem) 0x80) :=
  ⟨by decide, top_reaches, trivial⟩

theorem witness_CompareWritesFlagsOnly : top.reachesForm p0 (.rmReg .word (.mem bxMem) .eax) :=
  ⟨top_reaches, trivial⟩

theorem witness_IncDecComplete : top.mem.wf = true ∧ top.reaches p0 (.mem bxMem) .word :=
  ⟨by decide, top_reaches⟩

theorem witness_NegCompletes :
    top.mem.wf = true ∧ (start 7 0xFFFF 0 0).reaches p0 (.mem bxMem) .byte := ⟨by decide, top_reaches_byte⟩

theorem witness_MulCompletes : top.reaches p0 (.mem bxMem) .word ∧ top.reaches p66 (.reg .edi) .dword :=
  ⟨top_reaches, trivial⟩

theorem witness_ImulAccumulatorCompletes : (start 7 0xFFFF 0 0).reaches p0 (.mem bxMem) .byte := top_reaches_byte

theorem witness_ImulRegisterCompletes :
    top.reaches p0 (.mem bxMem) p0.opSize ∧ top.reaches p0 (.mem bxMem) .word := ⟨top_reaches, top_reaches⟩

/-- V-AR-56: the largest quotient. -/
theorem witness_DivCompletes :
    let s := start 0x1FE 2 0 0
    s.reaches p0 (.reg .ebx) .byte ∧ (s.operand p0 (.reg .ebx) .byte).toNat ≠ 0 ∧
    (s.reg (highReg .byte) .byte ++ s.reg .eax .byte).toNat / (s.operand p0 (.reg .ebx) .byte).toNat = 0xFF :=
  ⟨trivial, by decide, by decide⟩

/-- V-AR-65: the least quotient. -/
theorem witness_IdivCompletes :
    let s := start 0xFF80 1 0 0
    s.reaches p0 (.reg .ebx) .byte ∧ (s.operand p0 (.reg .ebx) .byte).toInt ≠ 0 ∧
    (s.reg (highReg .byte) .byte ++ s.reg .eax .byte).toInt.tdiv (s.operand p0 (.reg .ebx) .byte).toInt
      = -2 ^ (8 - 1) :=
  ⟨trivial, by decide, by decide⟩

/-- Quotients just past the ends of the range, and the divisor 0. -/
theorem witness_DivideErrorRaises :
    let n := fun (s : State) => s.reg (highReg .byte) .byte ++ s.reg .eax .byte
    let d := fun (s : State) => s.operand p0 (.reg .ebx) .byte
    top.reaches p0 (.reg .ebx) .byte ∧ d (start 5 0 0 0) = 0 ∧
    2 ^ 8 ≤ (n (start 0x200 2 0 0)).toNat / (d (start 0x200 2 0 0)).toNat ∧
    (n (start 0xFF7F 1 0 0)).toInt.tdiv (d (start 0xFF7F 1 0 0)).toInt < -2 ^ (8 - 1) ∧
    2 ^ (8 - 1) ≤ (n (start 0xFF80 0xFF 0 0)).toInt.tdiv (d (start 0xFF80 0xFF 0 0)).toInt :=
  ⟨trivial, by decide, by decide, by decide, by decide⟩

theorem witness_LogicCompletes :
    top.mem.wf = true ∧ top.reachesForm p0 (.rmReg .word (.mem bxMem) .eax) :=
  ⟨by decide, top_reaches, trivial⟩

theorem witness_NotCompletes : top.mem.wf = true ∧ top.reaches p0 (.mem bxMem) .word := ⟨by decide, top_reaches⟩

theorem witness_TestWritesFlagsOnly :
    top.reaches p0 (TestForm.rmReg .word (.mem bxMem) .eax).left .word := top_reaches

theorem witness_BitTestInPlace : top.reaches p0 (.mem bxMem) p0.opSize := top_reaches

/-- Bit -1 of [0002] is in the word at 0; of [0000] it lies below the segment; bit 0 of [FFFF] runs past
its end. -/
theorem witness_BitTestInMemory :
    let a := fun (s : State) => ((s.addr bxMem).toNat : Int)
      + p0.opSize.bytes * (s.reg .eax p0.opSize).toInt.fdiv p0.opSize.bits
    (a (start 0xFFFF 2 0 0) = 0 ∧ (start 0xFFFF 2 0 0).reachesAt (bxMem.seg p0) 0 p0.opSize.bytes) ∧
    a (start 0xFFFF 0 0 0) < 0 ∧ 0x10000 < a (start 0 0xFFFF 0 0) + p0.opSize.bytes :=
  ⟨⟨by decide, by decide, plain_of rfl rfl (by decide)⟩, by decide, by decide⟩

theorem witness_ShiftClosedForms : 0 < 1 ∧ 8 ≤ Width.byte.bits ∧ 7 < Width.byte.bits := by decide

theorem witness_ShiftFlagsByCount : 0 < 1 ∧ 0 < 31 := by decide

/-- COUNT 0 and 31 from immediates, and 31 from CL = FFH. -/
theorem witness_ShiftsComplete :
    top.mem.wf = true ∧ top.reaches p0 (.mem bxMem) .word ∧ (32 : Byte).toNat % 32 = 0 ∧
    (0xFF : Byte).toNat % 32 = 31 ∧ ((start 7 0 0xFF 0).reg .ecx .byte).toNat % 32 = 31 :=
  ⟨by decide, top_reaches, by decide, by decide, by decide⟩

theorem witness_MovToOperandCompletes :
    top.mem.wf = true ∧ top.reaches p0 (.mem bxMem) .word ∧
    top.reachesAt (p0.seg.getD .ds) (Moffs.o16 0xFFFE).offset Width.word.bytes :=
  ⟨by decide, top_reaches, by decide, plain_of rfl rfl (by decide)⟩

theorem witness_RegisterLoadsComplete :
    top.reaches p0 (.mem bxMem) .word ∧ (start 7 0xFFFF 0 0).reaches p0 (.mem bxMem) .byte ∧
    top.reachesAt (p0.seg.getD .ds) (Moffs.o16 0xFFFE).offset Width.word.bytes :=
  ⟨top_reaches, top_reaches_byte, by decide, plain_of rfl rfl (by decide)⟩

theorem stack_canPop : (stack 0xFFFE).canPop 0 2 := ⟨by decide, plain_of rfl rfl (by decide)⟩

theorem witness_SegmentLoadsComplete :
    SReg.ss ≠ .cs ∧ top.reaches p0 (.mem bxMem) .word ∧ (stack 0xFFFE).canPop 0 p0.opSize.bytes :=
  ⟨by decide, top_reaches, stack_canPop⟩

theorem witness_ExchangeCompletes : top.mem.wf = true ∧ top.reaches p0 (.mem bxMem) .word :=
  ⟨by decide, top_reaches⟩

/-- V-DM-11: SP = 0; and SP = 2. -/
theorem witness_PushCompletes :
    (stack 0).mem.wf = true ∧ (stack 0).reaches p0 (.mem bxMem) p0.opSize ∧
    (stack 0).canPush 0 p0.opSize.bytes ∧ (stack 2).canPush 0 Width.word.bytes :=
  ⟨by decide, ⟨by decide, plain_of rfl rfl (by decide)⟩, ⟨by decide, plain_of rfl rfl (by decide)⟩,
    by decide, plain_of rfl rfl (by decide)⟩

theorem witness_PopCompletes :
    (stack 0xFFFE).mem.wf = true ∧ (stack 0xFFFE).canPop 0 p0.opSize.bytes ∧
    (bxMem.espBase = false ∧ (stack 0xFFFE).reaches p0 (.mem bxMem) p0.opSize) ∧
    (Mem.sib .esp none .x1 .none).espBase = true :=
  ⟨by decide, stack_canPop, ⟨rfl, by decide, plain_of rfl rfl (by decide)⟩, rfl⟩

/-- SP = 1, 3 and 5, identifier FF, and operands in memory. -/
theorem witness_PushPastTopShutsDown :
    0x10000 < (stack 1).below p0.opSize.bytes + p0.opSize.bytes ∧
    0x10000 < (stack 3).below p66.opSize.bytes + p66.opSize.bytes ∧
    0x10000 < (stack 1).below Width.word.bytes + Width.word.bytes ∧
    ((stack 1).sp = 1 ∧ (stack 3).sp = 3 ∧ (stack 5).sp = 5) ∧
    ((stack 1).reaches p0 (.mem bxMem) p0.opSize ∧ (stack 1).reaches p0 (.mem bxMem) .word) ∧
    (stack 3).reachesAt ((Mem.abs16 0xFFFC).seg p0) ((stack 3).addr (.abs16 0xFFFC)).toNat 4 ∧
    (stack 5).plain (4 * (0xFF : Byte).toNat) 4 :=
  ⟨by decide, by decide, by decide, ⟨by decide, by decide, by decide⟩,
    ⟨⟨by decide, plain_of rfl rfl (by decide)⟩, by decide, plain_of rfl rfl (by decide)⟩,
    ⟨by decide, plain_of rfl rfl (by decide)⟩, plain_of rfl rfl (by decide)⟩

theorem witness_PopPastTopRaises :
    0x10000 < (stack 0xFFFF).sp.toNat + p0.opSize.bytes ∧ 0x10000 < (stack 0xFFFD).sp.toNat + p66.opSize.bytes ∧
    (RM.mem bxMem).espBase = false ∧ (stack 0xFFFF).sp = 0xFFFF ∧
    ((stack 0xFFFD).sp = 0xFFFD ∧ (stack 0xFFFD).canPop 0 2) ∧
    ((stack 0xFFFB).sp = 0xFFFB ∧ (stack 0xFFFB).canPop 0 2 ∧ (stack 0xFFFB).canPop 2 2) :=
  ⟨by decide, by decide, rfl, by decide, ⟨by decide, by decide, plain_of rfl rfl (by decide)⟩,
    by decide, ⟨by decide, plain_of rfl rfl (by decide)⟩, by decide, plain_of rfl rfl (by decide)⟩

/-- A condition that holds and one that does not. -/
theorem witness_ConditionalJumpsComplete : Cond.ne.holds top.flags = true ∧ Cond.e.holds top.flags = false := by
  decide

theorem witness_JumpsComplete :
    top.reaches p0 (.mem bxMem) .word ∧
    (start 0 0xFFFC 0 0).reachesAt (bxMem.seg p0) ((start 0 0xFFFC 0 0).addr bxMem).toNat 4 :=
  ⟨top_reaches, by decide, plain_of rfl rfl (by decide)⟩

/-- SP = 2: the far call's second word lies at offset FFFE. -/
def callStack : State := { start 0 0xFFFC 0 0 with regs := { (start 0 0xFFFC 0 0).regs with esp := 2 } }

theorem callStack_canPush : callStack.canPush 0 2 ∧ callStack.canPush 2 2 :=
  ⟨⟨by decide, plain_of rfl rfl (by decide)⟩, by decide, plain_of rfl rfl (by decide)⟩

theorem witness_CallsComplete :
    callStack.mem.wf = true ∧ (callStack.canPush 0 2 ∧ callStack.canPush 2 2) ∧
    callStack.reaches p0 (.mem bxMem) .word ∧
    callStack.reachesAt (bxMem.seg p0) (callStack.addr bxMem).toNat 4 :=
  ⟨by decide, callStack_canPush, ⟨by decide, plain_of rfl rfl (by decide)⟩, by decide,
    plain_of rfl rfl (by decide)⟩

/-- SP = FFFE: the second word is read at offset 0. -/
theorem witness_ReturnsComplete : (stack 0xFFFE).canPop 0 2 ∧ (stack 0xFFFE).canPop 2 2 :=
  ⟨stack_canPop, by decide, plain_of rfl rfl (by decide)⟩

theorem witness_CallThenReturnRestores :
    callStack.mem.wf = true ∧ (callStack.canPush 0 2 ∧ callStack.canPush 2 2) ∧
    (∃ t, exec (.callRel p0 0x10) callStack = .next t) ∧
    ∃ t, exec (.callPtr p0 0x500 0x10) callStack = .next t :=
  ⟨by decide, callStack_canPush, exists_of_isNext (by decide), exists_of_isNext (by decide)⟩

/-- V-CT-33: SP = FFFC. -/
theorem witness_IretCompletes :
    (stack 0xFFFC).canPop 0 2 ∧ (stack 0xFFFC).canPop 2 2 ∧ (stack 0xFFFC).canPop 4 2 :=
  ⟨⟨by decide, plain_of rfl rfl (by decide)⟩, ⟨by decide, plain_of rfl rfl (by decide)⟩,
    by decide, plain_of rfl rfl (by decide)⟩

theorem stack_canPush : (stack 4).canPush 0 2 ∧ (stack 4).canPush 2 2 ∧ (stack 4).canPush 4 2 :=
  ⟨⟨by decide, plain_of rfl rfl (by decide)⟩, ⟨by decide, plain_of rfl rfl (by decide)⟩,
    by decide, plain_of rfl rfl (by decide)⟩

/-- V-INT-9: SP = 4, and identifier FF. -/
theorem witness_InterruptSequenceFrame :
    (stack 4).mem.wf = true ∧ (stack 4).plain (4 * (0xFF : Byte).toNat) 4 ∧
    (stack 4).canPush 0 2 ∧ (stack 4).canPush 2 2 ∧ (stack 4).canPush 4 2 :=
  ⟨by decide, plain_of rfl rfl (by decide), stack_canPush⟩

theorem witness_InterruptThenIretRestores :
    (stack 4).mem.wf = true ∧ (stack 4).eip.toNat < 0x10000 ∧ (stack 4).plain (4 * (0xFF : Byte).toNat) 4 ∧
    ((stack 4).canPush 0 2 ∧ (stack 4).canPush 2 2 ∧ (stack 4).canPush 4 2) ∧
    ∃ t, (stack 4).interrupt 0xFF ((stack 4).eip.extractLsb' 0 16) false = .next t :=
  ⟨by decide, by decide, plain_of rfl rfl (by decide), stack_canPush, exists_of_isNext (by decide)⟩

/-- A scripted input, port FFFF, and an access past it; a device under the last word of DS, with scripted
bytes. -/
theorem witness_PortAccessCompletes :
    let s := start 0 0 0 0xFFFF
    let d : State := { top with mmio := [⟨0x11FFE, 2⟩], deviceIn := [0x34, 0x12, 0x56] }
    ({ s with ioIn := [0x1C] } : State).ioIn = 0x1C :: [] ∧
    (s.reg .edx .word).toNat + Width.byte.bytes ≤ 0x10000 ∧
    0x10000 < (s.reg .edx .word).toNat + Width.word.bytes ∧
    (d.addr bxMem).toNat + Width.word.bytes ≤ 0x10000 ∧ d.devices (d.operandAddr p0 bxMem) Width.word.bytes ∧
    d.deviceIn = [0x34, 0x12] ++ [0x56] ∧ [(0x34 : Byte), 0x12].length = Width.word.bytes :=
  ⟨rfl, by decide, by decide, by decide, by unfold State.devices; decide, rfl, rfl⟩

theorem witness_LeaAndNopComplete : (⟨false, false, some .gs⟩ : Prefixes).seg = some .gs ∧ p0.seg = none :=
  ⟨rfl, rfl⟩

end Sys2Proof.Tests
end

section
/-!
PROOFS. The names of the general registers as views of one storage (R33).
-/

namespace Sys2Proof.Machine

/-! ## Registers -/

/-- The 32-bit register a byte write changes. -/
@[simp] theorem Regs.get_write_byte (g : Regs) (r r' : Reg) (v : Byte) :
    (g.write r .byte v).get r' = if r' = r.byteHome then
      (if r.byteHigh then setHigh8 (g.get r.byteHome) v else setLow8 (g.get r.byteHome) v) else g.get r' := by
  simp only [Regs.write, Regs.get_set]

/-- The 32-bit register a doubleword write changes. -/
@[simp] theorem Regs.get_write_dword (g : Regs) (r r' : Reg) (v : Dword) :
    (g.write r .dword v).get r' = if r' = r then v else g.get r' := by
  simp only [Regs.write, Regs.get_set]

/-- The register of any width just written. -/
theorem Regs.read_write_same (g : Regs) (r : Reg) (w : Width) (v : BitVec w.bits) :
    (g.write r w v).read r w = v := by
  cases w with
  | byte =>
    simp only [Regs.read, Regs.get_write_byte, if_true]
    cases r.byteHigh
    · exact setLow8_low _ _
    · exact setHigh8_second _ _
  | word => exact Regs.read_write_word g r v
  | dword => simp only [Regs.read, Regs.get_write_dword, if_true]

/-- Settles O14: each name reads a slice of its register, and a narrow write replaces that slice alone. -/
theorem registerNamesAreViews : Obligations.RegisterNamesAreViews := by
  intro g r
  refine ⟨rfl, rfl, rfl, Regs.read_write_same g r, fun v => ?_, fun v => ?_, fun v r' hr => ?_,
    fun v r' hr => ?_, fun v r' hr => ?_⟩
  · simp only [Regs.get_write_word, if_true, setLow16_high]
  · simp only [Regs.get_write_byte, if_true]
    cases r.byteHigh
    · exact ⟨setLow8_high _ _, setLow8_second _ _⟩
    · exact ⟨setHigh8_high _ _, setHigh8_low _ _⟩
  · simp only [Regs.get_write_word, if_neg hr]
  · simp only [Regs.get_write_dword, if_neg hr]
  · simp only [Regs.get_write_byte, if_neg hr]

end Sys2Proof.Machine
end

section
/-!
PROOFS. RESET, the instruction boundary and the fetch (R41, R71, R103, R415).
-/

namespace Sys2Proof.Machine

/-- Settles O5: RESET clears every described flag of the INIT_STATE (`EFlags.resetDescribed`). -/
theorem resetClearsDescribedFlags : Obligations.ResetClearsDescribedFlags := by
  intro i
  exact ⟨rfl, rfl, rfl, rfl, rfl, rfl, rfl, rfl⟩

/-! ## The step at a boundary -/

/-- Shutdown executes nothing. -/
theorem step_of_shutdown {s : State} (hr : s.resetSignal = false) (hs : s.shutdown = true) :
    step s = .fault .shutdown := by
  simp [step, hr, hs]

/-- A boundary with TF = 1 is refused. -/
theorem step_of_tf {s : State} (hr : s.resetSignal = false) (hs : s.shutdown = false) (ht : s.flags.tf = true) :
    step s = .refused .tfSet := by
  simp [step, hr, hs, ht]

/-- At a boundary where nothing stops the machine and no interrupt is due, an instruction that can be fetched
runs. -/
theorem step_of_fetch_ok {s : State} {i : Instr} (hr : s.resetSignal = false) (hs : s.shutdown = false)
    (ht : s.flags.tf = false) (hn : s.recognised = none) (hf : s.fetch = .ok i) :
    step s = exec i ((s.fetched i.length).begin i) := by
  simp [step, hr, hs, ht, hn, hf]

/-- At such a boundary a fetch that traps is delivered, after the reads of every byte it can see. -/
theorem step_of_fetch_error {s : State} {t : Trap} (hr : s.resetSignal = false) (hs : s.shutdown = false)
    (ht : s.flags.tf = false) (hn : s.recognised = none) (hf : s.fetch = .error t) :
    step s = (s.fetched s.codeRoom).closeWindows.deliver t := by
  simp [step, hr, hs, ht, hn, hf]

/-! ## The fetch -/

/-- All that the fetch of an instruction's bytes can change: what the devices were asked. -/
theorem State.fetched_frame (s : State) (n : Nat) : ∃ ins tr k,
    s.fetched n = { s with deviceIn := ins, deviceTrace := tr, draws := k } :=
  State.loadCode_frame n s s.codeAddr

@[simp] theorem State.fetched_eip (s : State) (n : Nat) : (s.fetched n).eip = s.eip := by
  obtain ⟨_, _, _, h⟩ := s.fetched_frame n
  rw [h]

@[simp] theorem State.fetched_mem (s : State) (n : Nat) : (s.fetched n).mem = s.mem := by
  obtain ⟨_, _, _, h⟩ := s.fetched_frame n
  rw [h]

@[simp] theorem State.fetched_cycles (s : State) (n : Nat) : (s.fetched n).cycles = s.cycles := by
  obtain ⟨_, _, _, h⟩ := s.fetched_frame n
  rw [h]

/-- An instruction that decodes and whose bytes may be fetched is fetched. -/
theorem State.fetch_of_decode {s : State} {i : Instr} {rest : List Byte}
    (hd : decode s.codeBytes = .ok (i, rest)) (hc : s.checkCode i.length = .ok ()) : s.fetch = .ok i := by
  simp [State.fetch, hd, hc, bind, Except.bind]

/-- Bytes that end before the instruction does raise Interrupt 13, where they may be fetched. -/
theorem State.fetch_of_needMore {s : State} (hd : decode s.codeBytes = .error .needMore)
    (hc : s.checkCode s.codeRoom = .ok ()) : s.fetch = .error (.exc 13) := by
  simp [State.fetch, hd, hc, bind, Except.bind]

/-- What is fetched was decoded. -/
theorem State.decode_of_fetch {s : State} {i : Instr} (h : s.fetch = .ok i) :
    ∃ rest, decode s.codeBytes = .ok (i, rest) := by
  unfold State.fetch at h
  split at h
  · next j rest hd =>
    cases hc : s.checkCode j.length with
    | error e => simp [hc, bind, Except.bind] at h
    | ok u =>
      simp only [hc, bind, Except.bind, Except.ok.injEq] at h
      exact ⟨rest, h ▸ hd⟩
  · cases hc : s.checkCode s.codeRoom <;> simp [hc, bind, Except.bind] at h
  · cases h

/-- Plain memory from an address on is plain memory from the next one on. -/
theorem State.plain.tail {s : State} {a n : Nat} (h : s.plain a (n + 1)) : s.plain (a + 1) n := fun k hk => by
  rw [Nat.add_right_comm, Nat.add_assoc]
  exact h (k + 1) (by omega)

/-- Devices from an address on are devices from the next one on. -/
theorem State.devices.tail {s : State} {a n : Nat} (h : s.devices a (n + 1)) : s.devices (a + 1) n :=
  fun k hk => by
    rw [Nat.add_right_comm, Nat.add_assoc]
    exact h (k + 1) (by omega)

/-- A fetch from plain memory leaves the state as it is. -/
theorem State.loadCode_plain : ∀ (n : Nat) (s : State) (a : Nat), s.plain a n → (s.loadCode a n).2 = s
  | 0, _, _, _ => rfl
  | n + 1, s, a, h => by
    have h0 : s.loadByte a = (s.mem.get a, s) := State.loadByte_plain (h 0 (Nat.succ_pos n)).2
    simp only [State.loadCode, h0]
    exact State.loadCode_plain n s (a + 1) h.tail

/-- A byte read from a device that has a scripted one. -/
theorem State.loadByte_device {s : State} {a : Nat} {b : Byte} {bs : List Byte}
    (h : inRegions s.mmio a = true) (hin : s.deviceIn = b :: bs) :
    s.loadByte a = (b, { s with deviceIn := bs, deviceTrace := s.deviceTrace ++ [⟨.input, a, b⟩] }) := by
  simp [State.loadByte, h, State.deviceInput, State.usedDeviceInput, State.logDevice, hin]

/-- A fetch from devices takes the scripted bytes and records each. -/
theorem State.loadCode_devices : ∀ (bs rest : List Byte) (s : State) (a : Nat), s.devices a bs.length →
    s.deviceIn = bs ++ rest →
    (s.loadCode a bs.length).2 = { s with
      deviceIn := rest
      deviceTrace := s.deviceTrace ++ bs.zipIdx.map fun b => (⟨.input, a + b.2, b.1⟩ : DeviceAccess) }
  | [], rest, s, a, _, hin => by
    have : rest = s.deviceIn := hin.symm
    simp [State.loadCode, this]
  | b :: bs, rest, s, a, h, hin => by
    have hb := State.loadByte_device (h 0 (Nat.succ_pos _)).2 hin
    simp only [Nat.add_zero] at hb
    simp only [List.length_cons, State.loadCode, hb]
    let s1 : State := { s with deviceIn := bs ++ rest, deviceTrace := s.deviceTrace ++ [⟨.input, a, b⟩] }
    have hn : s1.devices (a + 1) bs.length := h.tail
    refine (State.loadCode_devices bs rest s1 (a + 1) hn rfl).trans ?_
    dsimp only [s1]
    simp [List.zipIdx_succ, Function.comp_def, Nat.add_assoc, Nat.add_comm 1]

/-- Settles O9: a step is the instruction that `State.fetch` answers, on the state after its fetch. -/
theorem stepRunsDecoded : Obligations.StepRunsDecoded := by
  intro s
  refine ⟨fun i rest hr hs ht hn hd hc => ?_, fun n h => State.loadCode_plain n s _ h,
    fun n bs rest h hin hlen => ?_⟩
  · rw [step_of_fetch_ok hr hs ht hn (State.fetch_of_decode hd hc)]
    simp only [State.begin, State.closeWindows, State.cost_fetched, State.fetched_cycles]
  · subst hlen
    exact State.loadCode_devices bs rest s _ h hin

/-- Settles O10: shutdown and TF = 1 are looked at before the fetch and the external interrupts. -/
theorem shutdownAndTrapFlagStop : Obligations.ShutdownAndTrapFlagStop :=
  fun _ hr => ⟨step_of_shutdown hr, step_of_tf hr⟩

/-- Settles O11: the fetch of an instruction cut short by offset 0FFFFH is Interrupt 13. -/
theorem fetchPastLimitRaises : Obligations.FetchPastLimitRaises := by
  intro s hr hs ht hn hd hc
  rw [step_of_fetch_error hr hs ht hn (State.fetch_of_needMore hd hc)]
  simp only [State.deliver, State.closeWindows, State.fetched_eip]

end Sys2Proof.Machine
end

section
/-!
PROOFS. AddFlags and SubFlags (R52, R53): the forms of OF agree; INC and DEC (R55).
-/

namespace Sys2Proof.Machine

/-! ## The results of AddFlags and SubFlags as numbers -/

/-- The sum of R52 read as unsigned: exact where there is no carry out, else 2^n less. -/
theorem addResult_cases {n : Nat} (a b : BitVec n) (c : Bool) :
    a.toNat + b.toNat + c.toNat < 2 ^ n ∧ (addResult a b c).toNat = a.toNat + b.toNat + c.toNat ∨
    2 ^ n ≤ a.toNat + b.toNat + c.toNat ∧ (addResult a b c).toNat + 2 ^ n = a.toNat + b.toNat + c.toNat := by
  have ha := a.isLt
  have hb := b.isLt
  have hc := c.toNat_le
  rw [addResult, BitVec.toNat_ofNat]
  rcases Nat.lt_or_ge (a.toNat + b.toNat + c.toNat) (2 ^ n) with h | h
  · exact .inl ⟨h, Nat.mod_eq_of_lt h⟩
  · rw [Nat.mod_eq_sub_mod h, Nat.mod_eq_of_lt (by omega)]
    exact .inr ⟨h, by omega⟩

/-- The sum of R52 read as signed: the exact sum, wrapped. -/
theorem toInt_addResult {n : Nat} (a b : BitVec n) (c : Bool) :
    (addResult a b c).toInt = (a.toInt + b.toInt + c.toNat).bmod (2 ^ n) := by
  have hr : addResult a b c = BitVec.ofInt n (a.toNat + b.toNat + c.toNat) := by
    rw [addResult, ← BitVec.ofInt_natCast, Int.natCast_add, Int.natCast_add]
  rw [hr, BitVec.toInt_ofInt, a.toInt_eq_toNat_bmod, b.toInt_eq_toNat_bmod,
    Int.add_assoc (Int.bmod _ _), Int.bmod_add_bmod, Int.add_left_comm _ (Int.bmod _ _), Int.bmod_add_bmod,
    Int.add_left_comm, Int.add_assoc]

/-- The difference of R53 read as signed: the exact difference, wrapped. -/
theorem toInt_subResult {n : Nat} (a b : BitVec n) (c : Bool) :
    (subResult a b c).toInt = (a.toInt - b.toInt - c.toNat).bmod (2 ^ n) := by
  rw [subResult, BitVec.toInt_ofInt, a.toInt_eq_toNat_bmod, b.toInt_eq_toNat_bmod,
    Int.sub_sub (Int.bmod _ _), Int.bmod_sub_bmod, Int.add_comm (Int.bmod _ _), ← Int.sub_sub,
    Int.sub_bmod_bmod, sub_right_comm]

/-- An exact sum or difference of two signed operands, wrapped: unchanged inside the signed range, else brought
back by one 2^n. -/
theorem bmod_cases {h : Nat} {x : Int} (hlo : -(h * 2) ≤ x) (hhi : x < h * 2) :
    (-h ≤ x ∧ x < h ∧ x.bmod (h * 2) = x) ∨ (h ≤ x ∧ x.bmod (h * 2) = x - h * 2) ∨
    (x < -h ∧ x.bmod (h * 2) = x + h * 2) := by
  rcases lt_or_ge x (-h) with h1 | h1
  · refine .inr (.inr ⟨h1, ?_⟩)
    rw [← Int.add_bmod_right, Int.bmod_eq_of_le_mul_two] <;> push_cast <;> omega
  · rcases lt_or_ge x h with h2 | h2
    · refine .inl ⟨h1, h2, Int.bmod_eq_of_le_mul_two ?_ ?_⟩ <;> push_cast <;> omega
    · refine .inr (.inl ⟨h2, ?_⟩)
      rw [← Int.sub_bmod_right, Int.bmod_eq_of_le_mul_two] <;> push_cast <;> omega

/-! ## Overflow -/

/-- An exact integer outside the signed range (R7, R52). -/
theorem outOfRange_iff (n : Nat) (x : Int) :
    outOfRange n x = true ↔ x < -2 ^ (n - 1) ∨ 2 ^ (n - 1) ≤ x := by
  simp [outOfRange]

/-- The sign form of OF for an addition: operands of one sign and a sum of the other, exactly when the exact sum
is out of range (R52). -/
theorem add_overflow_iff {n : Nat} (hn : 0 < n) (a b : BitVec n) (c : Bool) :
    ((a.msb == b.msb) && ((addResult a b c).msb != a.msb)) = true ↔
      a.toInt + b.toInt + c.toNat < -2 ^ (n - 1) ∨ 2 ^ (n - 1) ≤ a.toInt + b.toInt + c.toNat := by
  have hc := c.toNat_le
  have ha := a.le_toInt
  have ha' := a.toInt_lt
  have hb := b.le_toInt
  have hb' := b.toInt_lt
  have hz : (2 : Int) ^ (n - 1) = (2 ^ (n - 1) : Nat) := by push_cast; rfl
  simp only [Bool.and_eq_true, beq_iff_eq, bne_iff_ne, ne_eq, BitVec.msb_eq_toInt, decide_eq_decide,
    toInt_addResult, ← Nat.two_pow_pred_mul_two hn, hz] at *
  generalize 2 ^ (n - 1) = h at *
  rcases bmod_cases (h := h) (x := a.toInt + b.toInt + c.toNat) (by omega) (by omega) with
    ⟨h1, h2, e⟩ | ⟨h1, e⟩ | ⟨h1, e⟩ <;> rw [e] <;> omega

/-- The sign form of OF for a subtraction: operands of different signs and a difference whose sign is not the
first one's, exactly when the exact difference is out of range (R53). -/
theorem sub_overflow_iff {n : Nat} (hn : 0 < n) (a b : BitVec n) (c : Bool) :
    ((a.msb != b.msb) && ((subResult a b c).msb != a.msb)) = true ↔
      a.toInt - b.toInt - c.toNat < -2 ^ (n - 1) ∨ 2 ^ (n - 1) ≤ a.toInt - b.toInt - c.toNat := by
  have hc := c.toNat_le
  have ha := a.le_toInt
  have ha' := a.toInt_lt
  have hb := b.le_toInt
  have hb' := b.toInt_lt
  have hz : (2 : Int) ^ (n - 1) = (2 ^ (n - 1) : Nat) := by push_cast; rfl
  simp only [Bool.and_eq_true, bne_iff_ne, ne_eq, BitVec.msb_eq_toInt, decide_eq_decide,
    toInt_subResult, ← Nat.two_pow_pred_mul_two hn, hz] at *
  generalize 2 ^ (n - 1) = h at *
  rcases bmod_cases (h := h) (x := a.toInt - b.toInt - c.toNat) (by omega) (by omega) with
    ⟨h1, h2, e⟩ | ⟨h1, e⟩ | ⟨h1, e⟩ <;> rw [e] <;> omega

/-- A number of `n` bits is its top bit and the rest. -/
theorem toNat_cases {n : Nat} (hn : 0 < n) (x : BitVec n) :
    x.msb = false ∧ x.toNat = x.toNat % 2 ^ (n - 1) ∨
    x.msb = true ∧ x.toNat = x.toNat % 2 ^ (n - 1) + 2 ^ (n - 1) := by
  have hx := x.isLt
  rw [← Nat.two_pow_pred_mul_two hn] at hx
  rw [BitVec.msb_eq_decide]
  rcases Nat.lt_or_ge x.toNat (2 ^ (n - 1)) with h | h
  · exact .inl ⟨decide_eq_false (by omega), (Nat.mod_eq_of_lt h).symm⟩
  · refine .inr ⟨decide_eq_true h, ?_⟩
    rw [Nat.mod_eq_sub_mod h, Nat.mod_eq_of_lt (by omega)]
    omega

/-- The carry form of OF for an addition: the carry into the top bit differs from the carry out of it (R52). -/
theorem add_overflow_eq_carries {n : Nat} (hn : 0 < n) (a b : BitVec n) (c : Bool) :
    ((a.msb == b.msb) && ((addResult a b c).msb != a.msb)) =
      (decide (2 ^ (n - 1) ≤ a.toNat % 2 ^ (n - 1) + b.toNat % 2 ^ (n - 1) + c.toNat) !=
        decide (2 ^ n ≤ a.toNat + b.toNat + c.toNat)) := by
  have hc := c.toNat_le
  have hpos : 0 < 2 ^ (n - 1) := Nat.two_pow_pos _
  have hla := Nat.mod_lt a.toNat hpos
  have hlb := Nat.mod_lt b.toNat hpos
  have hr := addResult_cases a b c
  rw [Bool.eq_iff_iff, BitVec.msb_eq_decide (addResult a b c)]
  simp only [← Nat.two_pow_pred_mul_two hn] at *
  rcases toNat_cases hn a with ⟨ma, ea⟩ | ⟨ma, ea⟩ <;> rcases toNat_cases hn b with ⟨mb, eb⟩ | ⟨mb, eb⟩ <;>
    simp [ma, mb] <;> omega

theorem Width.one_lt_bits (w : Width) : 1 < w.bits := by cases w <;> decide

/-- The low four bits, as AF reads them (R52, D15). -/
theorem toNat_low4 {n : Nat} (a : BitVec n) : (a.extractLsb' 0 4).toNat = a.toNat % 16 := by
  simp

/-- OF of AddFlags in its sign form. -/
theorem outOfRange_add {n : Nat} (hn : 0 < n) (a b : BitVec n) (c : Bool) :
    outOfRange n (a.toInt + b.toInt + c.toNat) = ((a.msb == b.msb) && ((addResult a b c).msb != a.msb)) :=
  Bool.eq_iff_iff.2 ((outOfRange_iff _ _).trans (add_overflow_iff hn a b c).symm)

/-- OF of SubFlags in its sign form. -/
theorem outOfRange_sub {n : Nat} (hn : 0 < n) (a b : BitVec n) (c : Bool) :
    outOfRange n (a.toInt - b.toInt - c.toNat) = ((a.msb != b.msb) && ((subResult a b c).msb != a.msb)) :=
  Bool.eq_iff_iff.2 ((outOfRange_iff _ _).trans (sub_overflow_iff hn a b c).symm)

/-- Settles O17: the forms of OF agree by `add_overflow_iff` and `add_overflow_eq_carries`. -/
theorem addFlagsRule : Obligations.AddFlagsRule := by
  intro w a b c r
  have hr : addResult a b c = r := addResult_eq a b c
  have hn := Nat.zero_lt_of_lt (Width.one_lt_bits w)
  refine ⟨hr, ?_, ?_, ?_⟩
  · rw [← hr, ← outOfRange_add hn, toNat_low4, toNat_low4]
    rfl
  · rw [← hr]
    exact add_overflow_iff hn a b c
  · rw [← hr]
    exact add_overflow_eq_carries hn a b c

/-- Settles O18: the forms of OF agree by `sub_overflow_iff`. -/
theorem subFlagsRule : Obligations.SubFlagsRule := by
  intro w a b c r
  have hr : subResult a b c = r := subResult_eq a b c
  have hn := Nat.zero_lt_of_lt (Width.one_lt_bits w)
  have borrow : ∀ x y z : Nat, ((x : Int) - y - z < 0) = (x < y + z) := fun x y z => propext (by omega)
  refine ⟨hr, ?_, ?_⟩
  · rw [← hr, ← outOfRange_sub hn, toNat_low4, toNat_low4]
    simp only [subFlags, borrow]
    rfl
  · rw [← hr]
    exact sub_overflow_iff hn a b c

/-! ## INC and DEC -/

/-- A read-modify-write instruction whose operand can be reached. -/
theorem State.unary_ok {s : State} {p : Prefixes} {w : Width} {rm : RM}
    {g : BitVec w.bits → BitVec w.bits × StatusWrite} (h : s.reaches p rm w) :
    s.unary p w rm g =
      s.writeRM (s.writeStatus (g (s.operand p rm w)).2) p rm w (g (s.operand p rm w)).1 := by
  simp [State.unary, State.readRM_ok h, bind, Except.bind]

/-- OF of INC: only the largest value overflows (R248). -/
theorem addFlags_one_ovf {n : Nat} (hn : 1 < n) (a : BitVec n) :
    (addFlags a 1 false).ovf = .put (decide (a.toInt = 2 ^ (n - 1) - 1)) := by
  have h := a.toInt_lt
  have h' := a.le_toInt
  refine congrArg FlagWrite.put (Bool.eq_iff_iff.2 ((outOfRange_iff _ _).trans ?_))
  have h1 : (1 : BitVec n).toInt = 1 := BitVec.toInt_one hn
  simp only [h1, Bool.toNat_false, decide_eq_true_eq]
  omega

/-- OF of DEC: only the most negative value overflows (R249). -/
theorem subFlags_one_ovf {n : Nat} (hn : 1 < n) (a : BitVec n) :
    (subFlags a 1 false).ovf = .put (decide (a.toInt = -2 ^ (n - 1))) := by
  have h := a.toInt_lt
  have h' := a.le_toInt
  refine congrArg FlagWrite.put (Bool.eq_iff_iff.2 ((outOfRange_iff _ _).trans ?_))
  have h1 : (1 : BitVec n).toInt = 1 := BitVec.toInt_one hn
  simp only [h1, Bool.toNat_false, decide_eq_true_eq]
  omega

theorem addResult_one {n : Nat} (a : BitVec n) : addResult a 1 false = a + 1 := by
  simp [addResult_eq]

theorem subResult_one {n : Nat} (a : BitVec n) : subResult a 1 false = a - 1 := by
  simp [subResult_eq]

/-- An instruction that increments its operand completes. -/
theorem State.completesWith_incremented {s : State} {i : Instr} {rm : RM} {w : Width} (hwf : s.mem.wf = true)
    (h : s.reaches i.prefixes rm w)
    (he : exec i s = s.retire i.length (s.unary i.prefixes w rm incremented)) :
    s.completesWith i rm w (s.operand i.prefixes rm w + 1)
      { addFlags (s.operand i.prefixes rm w) 1 false with cf := .keep } := by
  rw [State.unary_ok h, incremented, addResult_one] at he
  exact State.completesWith_of_put hwf h he

/-- An instruction that decrements its operand completes. -/
theorem State.completesWith_decremented {s : State} {i : Instr} {rm : RM} {w : Width} (hwf : s.mem.wf = true)
    (h : s.reaches i.prefixes rm w)
    (he : exec i s = s.retire i.length (s.unary i.prefixes w rm decremented)) :
    s.completesWith i rm w (s.operand i.prefixes rm w - 1)
      { subFlags (s.operand i.prefixes rm w) 1 false with cf := .keep } := by
  rw [State.unary_ok h, decremented, subResult_one] at he
  exact State.completesWith_of_put hwf h he

/-- Settles O23: the four encodings are one read-modify-write, on a register operand for the +r forms. -/
theorem incDecComplete : Obligations.IncDecComplete := by
  intro s p w rm r hwf h a b
  refine ⟨addFlags_one_ovf (Width.one_lt_bits w) a, subFlags_one_ovf (Width.one_lt_bits w) a, ?_, ?_, ?_, ?_⟩
  · exact State.completesWith_incremented (i := .incRm p w rm) hwf h rfl
  · exact State.completesWith_decremented (i := .decRm p w rm) hwf h rfl
  · exact State.completesWith_incremented (i := .incR p r) (rm := .reg r) hwf trivial rfl
  · exact State.completesWith_decremented (i := .decR p r) (rm := .reg r) hwf trivial rfl

end Sys2Proof.Machine
end

section
/-!
PROOFS. The decoder reads as many bytes as the instruction it answers is long (R147).
-/

namespace Sys2Proof
open Machine

/-! ## What a parser answers -/

/-- Every answer of a parser, with the bytes it leaves, meets `P`. -/
def Answers {α : Type} (P : α → List Byte → Prop) (x : Parsed α) : Prop := ∀ a t, x = .ok (a, t) → P a t

theorem Answers.ok {α : Type} {P : α → List Byte → Prop} {a : α} {t : List Byte} (h : P a t) :
    Answers P (.ok (a, t)) := by
  rintro _ _ ⟨⟩
  exact h

theorem Answers.error {α : Type} {P : α → List Byte → Prop} (e : DecodeError) : Answers P (.error e) := by
  rintro _ _ ⟨⟩

/-- Reading on: what the first parser answers is what the second starts from. -/
theorem Answers.andThen {α β : Type} {P : α → List Byte → Prop} {Q : β → List Byte → Prop} {x : Parsed α}
    {f : α → List Byte → Parsed β} (hx : Answers P x) (hf : ∀ a t, P a t → Answers Q (f a t)) :
    Answers Q (andThen x f) := by
  cases x with
  | error e => exact Answers.error e
  | ok r => exact hf r.1 r.2 (hx r.1 r.2 rfl)

/-! ## The bytes of fields and operands -/

theorem takeByte_reads (t : List Byte) : Answers (fun _ u => 1 + u.length = t.length) (takeByte t) := by
  cases t with
  | nil => exact Answers.error _
  | cons b t => exact Answers.ok (Nat.add_comm _ _)

theorem takeWord_reads (t : List Byte) : Answers (fun _ u => 2 + u.length = t.length) (takeWord t) := by
  unfold takeWord
  split
  · exact Answers.ok (by simp only [List.length_cons]; omega)
  · exact Answers.error _

theorem takeDword_reads (t : List Byte) : Answers (fun _ u => 4 + u.length = t.length) (takeDword t) := by
  unfold takeDword
  split
  · exact Answers.ok (by simp only [List.length_cons]; omega)
  · exact Answers.error _

theorem takeImm_reads (w : Width) (t : List Byte) :
    Answers (fun _ u => w.bytes + u.length = t.length) (takeImm w t) := by
  cases w with
  | byte => exact takeByte_reads t
  | word => exact takeWord_reads t
  | dword => exact takeDword_reads t

theorem takeMoffs_reads (p : Prefixes) (t : List Byte) :
    Answers (fun off u => off.bytes.length + u.length = t.length) (takeMoffs p t) := by
  unfold takeMoffs
  split
  · exact (takeDword_reads t).andThen fun _ _ h => .ok h
  · exact (takeWord_reads t).andThen fun _ _ h => .ok h

/-- The length of a code offset in bytes (R144). -/
def Rel.size : Rel → Nat
  | .rel8 _ => 1
  | .rel16 _ => 2
  | .rel32 _ => 4

/-- Every code offset but a rel8 is read here. -/
theorem takeRel_reads (p : Prefixes) (t : List Byte) :
    Answers (fun rel u => rel.size + u.length = t.length ∧ 1 < rel.size) (takeRel p t) := by
  unfold takeRel
  split
  · exact (takeDword_reads t).andThen fun _ _ h => .ok ⟨h, by simp [Rel.size]⟩
  · exact (takeWord_reads t).andThen fun _ _ h => .ok ⟨h, by simp [Rel.size]⟩

theorem takeRel8_reads (t : List Byte) :
    Answers (fun rel u => 1 + u.length = t.length ∧ rel.size = 1) (takeRel8 t) :=
  (takeByte_reads t).andThen fun _ _ h => .ok ⟨h, rfl⟩

theorem takeDisp16_reads (mode : BitVec 2) (t : List Byte) :
    Answers (fun d u => d.bytes.length + u.length = t.length) (takeDisp16 mode t) := by
  unfold takeDisp16
  split
  · exact Answers.ok (Nat.zero_add _)
  · exact (takeByte_reads t).andThen fun _ _ h => .ok h
  · exact (takeWord_reads t).andThen fun _ _ h => .ok h

theorem takeDisp32_reads (mode : BitVec 2) (t : List Byte) :
    Answers (fun d u => d.bytes.length + u.length = t.length) (takeDisp32 mode t) := by
  unfold takeDisp32
  split
  · exact Answers.ok (Nat.zero_add _)
  · exact (takeByte_reads t).andThen fun _ _ h => .ok h
  · exact (takeDword_reads t).andThen fun _ _ h => .ok h

/-- How many bytes a memory operand takes, ModR/M and SIB among them (R128 to R133). -/
def Mem.size : Mem → Nat
  | .base16 _ disp => disp.bytes.length + 1
  | .abs16 _ => 3
  | .base32 _ disp => disp.bytes.length + 1
  | .abs32 _ => 5
  | .sib _ _ _ disp => disp.bytes.length + 2
  | .sibAbs _ _ _ => 6

/-- How many bytes an r/m operand takes. -/
def RM.size : RM → Nat
  | .reg _ => 1
  | .mem m => m.size

@[simp] theorem Mem.bytes_length (m : Mem) (reg : BitVec 3) : (m.bytes reg).length = m.size := by
  cases m <;> rfl

@[simp] theorem RM.bytes_length (rm : RM) (reg : BitVec 3) : (rm.bytes reg).length = rm.size := by
  cases rm with
  | reg r => rfl
  | mem m => exact m.bytes_length reg

theorem takeMem16_reads (mode : BitVec 2) (rm : BitVec 3) (t : List Byte) :
    Answers (fun m u => m.size + u.length = t.length + 1) (takeMem16 mode rm t) := by
  unfold takeMem16
  split
  · exact (takeWord_reads t).andThen fun _ _ h => .ok (by simp only [Mem.size]; omega)
  · exact (takeDisp16_reads mode t).andThen fun _ _ h => .ok (by simp only [Mem.size]; omega)

theorem takeSib_reads (mode : BitVec 2) (t : List Byte) :
    Answers (fun m u => m.size + u.length = t.length + 1) (takeSib mode t) := by
  unfold takeSib
  split
  · exact Answers.error _
  · next sib t =>
    dsimp only
    split
    · exact (takeDword_reads t).andThen fun _ _ h => .ok (by simp only [Mem.size, List.length_cons]; omega)
    · exact (takeDisp32_reads mode t).andThen fun _ _ h => .ok (by simp only [Mem.size, List.length_cons]; omega)

theorem takeMem32_reads (mode : BitVec 2) (rm : BitVec 3) (t : List Byte) :
    Answers (fun m u => m.size + u.length = t.length + 1) (takeMem32 mode rm t) := by
  unfold takeMem32
  split
  · exact takeSib_reads mode t
  · split
    · exact (takeDword_reads t).andThen fun _ _ h => .ok (by simp only [Mem.size]; omega)
    · exact (takeDisp32_reads mode t).andThen fun _ _ h => .ok (by simp only [Mem.size]; omega)

/-- A ModR/M byte and all it calls for. -/
theorem takeModRM_reads (p : Prefixes) (t : List Byte) :
    Answers (fun x u => x.2.size + u.length = t.length) (takeModRM p t) := by
  unfold takeModRM
  split
  · exact Answers.error _
  · next b t =>
    dsimp only
    split
    · exact Answers.ok (Nat.add_comm 1 t.length)
    · split
      · exact (takeMem32_reads _ _ t).andThen fun _ _ h => .ok h
      · exact (takeMem16_reads _ _ t).andThen fun _ _ h => .ok h

/-! ## The opcode maps -/

/-- The decoder of what follows the prefixes `p` reads `n` bytes in all: those of the instruction it answers, and
those it leaves. -/
def ReadsInstr (p : Prefixes) (n : Nat) (x : Parsed Instr) : Prop :=
  Answers (fun i u => i.prefixes = p ∧ i.body.length + u.length = n) x

theorem ReadsInstr.ok {p : Prefixes} {n : Nat} {i : Instr} {u : List Byte} (hp : i.prefixes = p)
    (hn : i.body.length + u.length = n) : ReadsInstr p n (.ok (i, u)) := Answers.ok ⟨hp, hn⟩

theorem ReadsInstr.error {p : Prefixes} {n : Nat} (e : DecodeError) : ReadsInstr p n (.error e) := Answers.error e

/-- A ModR/M byte with its operand, and what is decoded after it. -/
theorem ReadsInstr.modRM {p : Prefixes} {n : Nat} {t : List Byte} {f : BitVec 3 × RM → List Byte → Parsed Instr}
    (hf : ∀ reg rm u, rm.size + u.length = t.length → ReadsInstr p n (f (reg, rm) u)) :
    ReadsInstr p n (andThen (takeModRM p t) f) :=
  (takeModRM_reads p t).andThen fun x u h => hf x.1 x.2 u h

/-- An immediate, and what is decoded after it. -/
theorem ReadsInstr.imm {p : Prefixes} {n : Nat} {t : List Byte} {w : Width}
    {f : BitVec w.bits → List Byte → Parsed Instr}
    (hf : ∀ imm u, w.bytes + u.length = t.length → ReadsInstr p n (f imm u)) :
    ReadsInstr p n (andThen (takeImm w t) f) :=
  (takeImm_reads w t).andThen hf

/-- A byte, and what is decoded after it. -/
theorem ReadsInstr.byte {p : Prefixes} {n : Nat} {t : List Byte} {f : Byte → List Byte → Parsed Instr}
    (hf : ∀ b u, 1 + u.length = t.length → ReadsInstr p n (f b u)) :
    ReadsInstr p n (andThen (takeByte t) f) :=
  (takeByte_reads t).andThen hf

/-- A word, and what is decoded after it. -/
theorem ReadsInstr.word {p : Prefixes} {n : Nat} {t : List Byte} {f : Word → List Byte → Parsed Instr}
    (hf : ∀ v u, 2 + u.length = t.length → ReadsInstr p n (f v u)) :
    ReadsInstr p n (andThen (takeWord t) f) :=
  (takeWord_reads t).andThen hf

/-- A code offset of OperandSize bits, and what is decoded after it. -/
theorem ReadsInstr.rel {p : Prefixes} {n : Nat} {t : List Byte} {f : Rel → List Byte → Parsed Instr}
    (hf : ∀ rel u, rel.size + u.length = t.length → 1 < rel.size → ReadsInstr p n (f rel u)) :
    ReadsInstr p n (andThen (takeRel p t) f) :=
  (takeRel_reads p t).andThen fun rel u h => hf rel u h.1 h.2

/-- A rel8, and what is decoded after it. -/
theorem ReadsInstr.rel8 {p : Prefixes} {n : Nat} {t : List Byte} {f : Rel → List Byte → Parsed Instr}
    (hf : ∀ rel u, 1 + u.length = t.length → rel.size = 1 → ReadsInstr p n (f rel u)) :
    ReadsInstr p n (andThen (takeRel8 t) f) :=
  (takeRel8_reads t).andThen fun rel u h => hf rel u h.1 h.2

/-- A form listed for OperandSize 16 only is decoded as any other, or refused. -/
theorem ReadsInstr.only16 {p : Prefixes} {n : Nat} {x : Parsed Instr} (hx : ReadsInstr p n x) :
    ReadsInstr p n (only16 p x) := by
  unfold Sys2Proof.only16
  split
  · exact .error _
  · exact hx

theorem aluInstr_prefixes (p : Prefixes) (digit : Nat) (f : AluForm) : (aluInstr p digit f).prefixes = p := by
  unfold aluInstr
  split <;> rfl

/-- How many bytes a two-operand form takes after its prefixes (R243). -/
def AluForm.size : AluForm → Nat
  | .accImm w _ => w.bytes + 1
  | .rmImm w rm _ => rm.size + w.bytes + 1
  | .rmImm8 _ rm _ => rm.size + 2
  | .rmReg _ rm _ => rm.size + 1
  | .regRm _ _ rm => rm.size + 1

@[simp] theorem AluForm.bytes_length (f : AluForm) (digit : BitVec 3) : (f.bytes digit).length = f.size := by
  cases f <;> simp [AluForm.bytes, AluForm.size]

theorem aluInstr_body_length (p : Prefixes) (digit : Nat) (f : AluForm) :
    (aluInstr p digit f).body.length = f.size := by
  unfold aluInstr
  split <;> exact f.bytes_length _

/-- A two-operand instruction read whole. -/
theorem ReadsInstr.alu {p : Prefixes} {n digit : Nat} {f : AluForm} {u : List Byte} (h : f.size + u.length = n) :
    ReadsInstr p n (.ok (aluInstr p digit f, u)) :=
  .ok (aluInstr_prefixes p digit f) (by rw [aluInstr_body_length]; exact h)

theorem decodeAlu_reads (p : Prefixes) (digit lo : Nat) (t : List Byte) :
    ReadsInstr p (t.length + 1) (decodeAlu p digit lo t) := by
  unfold decodeAlu
  split
  iterate 4 exact .modRM fun _ _ _ h => .alu (by simp only [AluForm.size]; omega)
  iterate 2 exact .imm fun _ _ h => .alu (by simp only [AluForm.size]; omega)

theorem decodeGroupImm_reads (p : Prefixes) (lo : Nat) (t : List Byte) :
    ReadsInstr p (t.length + 1) (decodeGroupImm p lo t) := by
  unfold decodeGroupImm
  split
  iterate 2 exact .modRM fun _ _ _ h => .imm fun _ _ h' => .alu (by simp only [AluForm.size]; omega)
  exact .modRM fun _ _ _ h => .byte fun _ _ h' => .alu (by simp only [AluForm.size]; omega)

/-- How many bytes a count takes (R300). -/
def Count.size : Count → Nat
  | .one | .cl => 0
  | .imm _ => 1

@[simp] theorem shiftBytes_length (digit : BitVec 3) (w : Width) (rm : RM) (n : Count) :
    (shiftBytes digit w rm n).length = rm.size + n.size + 1 := by
  cases n <;> simp [shiftBytes, Count.size]

theorem shiftInstr_reads {p : Prefixes} {digit n : Nat} {w : Width} {rm : RM} {c : Count} {u : List Byte}
    (h : rm.size + c.size + 1 + u.length = n) : ReadsInstr p n (shiftInstr p digit w rm c u) := by
  unfold shiftInstr
  split
  iterate 7 exact .ok rfl (by simpa [Instr.body] using h)
  exact .error _

theorem decodeShift_reads (p : Prefixes) (w : Width) (c : Count) (hc : c.size = 0) (t : List Byte) :
    ReadsInstr p (t.length + 1) (decodeShift p w c t) :=
  .modRM fun _ _ _ h => shiftInstr_reads (by omega)

theorem decodeShiftImm_reads (p : Prefixes) (w : Width) (t : List Byte) :
    ReadsInstr p (t.length + 1) (decodeShiftImm p w t) :=
  .modRM fun _ _ _ h => .byte fun _ _ h' => shiftInstr_reads (by simp only [Count.size]; omega)

/-- A form whose operands are one ModR/M byte with what it calls for, after one opcode byte. -/
theorem ReadsInstr.ok_rm {p : Prefixes} {i : Instr} {rm : RM} {t u : List Byte} (h : rm.size + u.length = t.length)
    (hp : i.prefixes = p) (hb : i.body.length = rm.size + 1) : ReadsInstr p (t.length + 1) (.ok (i, u)) :=
  .ok hp (by omega)

theorem decodeGroupUnary_reads (p : Prefixes) (w : Width) (t : List Byte) :
    ReadsInstr p (t.length + 1) (decodeGroupUnary p w t) := by
  refine .modRM fun reg rm u h => ?_
  dsimp only
  split
  · exact .imm fun _ _ h' => .ok rfl (by simp [Instr.body, TestForm.bytes]; omega)
  iterate 6 exact .ok_rm h rfl (by simp [Instr.body])
  exact .error _

theorem decodeGroupFE_reads (p : Prefixes) (t : List Byte) : ReadsInstr p (t.length + 1) (decodeGroupFE p t) := by
  refine .modRM fun reg rm u h => ?_
  dsimp only
  split
  iterate 2 exact .ok_rm h rfl (by simp [Instr.body])
  exact .error _

/-- A far indirect transfer: one opcode byte and an operand in memory. -/
theorem farMem_reads {p : Prefixes} {mk : Mem → Instr} {rm : RM} {t u : List Byte}
    (h : rm.size + u.length = t.length) (hp : ∀ m, (mk m).prefixes = p)
    (hb : ∀ m, (mk m).body.length = RM.size (.mem m) + 1) : ReadsInstr p (t.length + 1) (farMem mk rm u) := by
  cases rm with
  | reg r => exact .error _
  | mem m => exact .ok_rm h (hp m) (hb m)

theorem decodeGroupFF_reads (p : Prefixes) (t : List Byte) : ReadsInstr p (t.length + 1) (decodeGroupFF p t) := by
  refine .modRM fun reg rm u h => ?_
  dsimp only
  split
  · exact .ok_rm h rfl (by simp [Instr.body])
  · exact .ok_rm h rfl (by simp [Instr.body])
  · exact .only16 (.ok_rm h rfl (by simp [Instr.body]))
  · exact .only16 (farMem_reads h (fun _ => rfl) fun m => by simp [Instr.body, RM.size])
  · exact .only16 (.ok_rm h rfl (by simp [Instr.body]))
  · exact .only16 (farMem_reads h (fun _ => rfl) fun m => by simp [Instr.body, RM.size])
  · exact .ok_rm h rfl (by simp [Instr.body])
  · exact .error _

theorem decodeMovImm_reads (p : Prefixes) (w : Width) (t : List Byte) :
    ReadsInstr p (t.length + 1) (decodeMovImm p w t) := by
  refine .modRM fun reg rm u h => ?_
  dsimp only
  split
  · exact .imm fun _ _ h' => .ok rfl (by simp [Instr.body]; omega)
  · exact .error _

theorem decodeMovRmSreg_reads (p : Prefixes) (t : List Byte) :
    ReadsInstr p (t.length + 1) (decodeMovRmSreg p t) := by
  refine .modRM fun reg rm u h => ?_
  dsimp only
  split
  · exact .error _
  · split
    · exact .ok_rm h rfl (by simp [Instr.body])
    · exact .error _

theorem decodeMovSregRm_reads (p : Prefixes) (t : List Byte) :
    ReadsInstr p (t.length + 1) (decodeMovSregRm p t) := by
  refine .modRM fun reg rm u h => ?_
  dsimp only
  split
  · exact .error _
  · split
    · exact .error _
    · exact .ok_rm h rfl (by simp [Instr.body])
    · exact .error _

theorem decodePopRm_reads (p : Prefixes) (t : List Byte) : ReadsInstr p (t.length + 1) (decodePopRm p t) := by
  refine .modRM fun reg rm u h => ?_
  dsimp only
  split
  · exact .ok_rm h rfl (by simp [Instr.body])
  · exact .error _

theorem decodeBtImm_reads (p : Prefixes) (t : List Byte) : ReadsInstr p (t.length + 2) (decodeBtImm p t) := by
  refine .modRM fun reg rm u h => ?_
  dsimp only
  split
  · exact .byte fun _ _ h' => .ok rfl (by simp [Instr.body]; omega)
  · exact .error _

/-- A form with `/r` after `k` opcode bytes. -/
theorem decodeSlashR_reads {p : Prefixes} {k : Nat} {mk : Reg → RM → Instr} {t : List Byte}
    (hp : ∀ r rm, (mk r rm).prefixes = p) (hb : ∀ r rm, (mk r rm).body.length = rm.size + k) :
    ReadsInstr p (t.length + k) (decodeSlashR p mk t) :=
  .modRM fun _ _ _ h => .ok (hp _ _) (by rw [hb]; omega)

theorem jccInstr_prefixes (p : Prefixes) (cc : Nat) (t : Rel) : (jccInstr p cc t).prefixes = p := by
  unfold jccInstr
  split <;> rfl

/-- How many bytes a conditional jump takes after its prefixes (R320): the rel8 form has one opcode byte. -/
theorem jccBytes_length (cc : Byte) (t : Rel) :
    (jccBytes cc t).length = if t.size = 1 then 2 else t.size + 2 := by
  cases t <;> rfl

theorem jccInstr_body_length (p : Prefixes) (cc : Nat) (t : Rel) :
    (jccInstr p cc t).body.length = if t.size = 1 then 2 else t.size + 2 := by
  unfold jccInstr
  split <;> exact jccBytes_length _ t

/-- A conditional jump with a rel8. -/
theorem jcc_short_reads (p : Prefixes) (cc : Nat) (t : List Byte) :
    ReadsInstr p (t.length + 1) (andThen (takeRel8 t) fun rel t => .ok (jccInstr p cc rel, t)) :=
  .rel8 fun rel u h h1 =>
    .ok (jccInstr_prefixes p cc rel) (by rw [jccInstr_body_length, if_pos h1]; omega)

/-- A conditional jump with a rel16 or rel32, after two opcode bytes. -/
theorem jcc_near_reads (p : Prefixes) (cc : Nat) (t : List Byte) :
    ReadsInstr p (t.length + 2) (andThen (takeRel p t) fun rel t => .ok (jccInstr p cc rel, t)) :=
  .rel fun rel u h h1 =>
    .ok (jccInstr_prefixes p cc rel) (by rw [jccInstr_body_length, if_neg (by omega)]; omega)

theorem jmpBytes_length (t : Rel) : (jmpBytes t).length = t.size + 1 := by
  cases t <;> rfl

theorem decode68_reads (p : Prefixes) (lo : Nat) (t : List Byte) :
    ReadsInstr p (t.length + 1) (decode68 p lo t) := by
  unfold decode68
  split
  · exact .imm fun _ _ h => .ok rfl (by simp [Instr.body]; omega)
  · exact .modRM fun _ _ _ h => .imm fun _ _ h' => .ok rfl (by simp [Instr.body]; omega)
  · exact .modRM fun _ _ _ h => .byte fun _ _ h' => .ok rfl (by simp [Instr.body]; omega)
  · exact .error _

theorem decode80_reads (p : Prefixes) (lo : Nat) (t : List Byte) :
    ReadsInstr p (t.length + 1) (decode80 p lo t) := by
  unfold decode80
  split
  iterate 3 exact decodeGroupImm_reads p _ t
  iterate 4 exact decodeSlashR_reads (fun _ _ => rfl) fun _ _ => by simp [Instr.body, TestForm.bytes]
  exact .error _

theorem decode88_reads (p : Prefixes) (lo : Nat) (t : List Byte) :
    ReadsInstr p (t.length + 1) (decode88 p lo t) := by
  unfold decode88
  split
  iterate 4 exact decodeSlashR_reads (fun _ _ => rfl) fun _ _ => by simp [Instr.body]
  · exact decodeMovRmSreg_reads p t
  · exact decodeSlashR_reads (fun _ _ => rfl) fun _ _ => by simp [Instr.body]
  · exact decodeMovSregRm_reads p t
  · exact decodePopRm_reads p t

/-- An instruction of one opcode byte and nothing after it. -/
theorem ReadsInstr.one {p : Prefixes} {i : Instr} {t : List Byte} (hp : i.prefixes = p) (hb : i.body.length = 1) :
    ReadsInstr p (t.length + 1) (.ok (i, t)) :=
  .ok hp (by omega)

theorem decode90_reads (p : Prefixes) (r : Reg) (t : List Byte) :
    ReadsInstr p (t.length + 1) (decode90 p r t) := by
  unfold decode90
  split <;> exact .one rfl rfl

/-- A far pointer after one opcode byte (R327, R331). -/
theorem farPtr_reads {p : Prefixes} {mk : Word → Word → Instr} {t : List Byte}
    (hp : ∀ sel off, (mk sel off).prefixes = p) (hb : ∀ sel off, (mk sel off).body.length = 5) :
    ReadsInstr p (t.length + 1)
      (andThen (takeWord t) fun off t => andThen (takeWord t) fun sel t => .ok (mk sel off, t)) :=
  .word fun _ _ h => .word fun _ _ h' => .ok (hp _ _) (by rw [hb]; omega)

theorem decode98_reads (p : Prefixes) (lo : Nat) (t : List Byte) :
    ReadsInstr p (t.length + 1) (decode98 p lo t) := by
  unfold decode98
  split
  · split <;> exact .one rfl rfl
  · exact .only16 (farPtr_reads (fun _ _ => rfl) fun _ _ => rfl)
  · exact .error _

theorem decodeA0_reads (p : Prefixes) (lo : Nat) (t : List Byte) :
    ReadsInstr p (t.length + 1) (decodeA0 p lo t) := by
  unfold decodeA0
  split
  iterate 4 exact (takeMoffs_reads p t).andThen fun _ _ h => ReadsInstr.ok rfl (by simp [Instr.body]; omega)
  exact .error _

theorem decodeA8_reads (p : Prefixes) (lo : Nat) (t : List Byte) :
    ReadsInstr p (t.length + 1) (decodeA8 p lo t) := by
  unfold decodeA8
  split
  iterate 2 exact .imm fun _ _ h => .ok rfl (by simp [Instr.body, TestForm.bytes]; omega)
  exact .error _

/-- One opcode byte and a word. -/
theorem word_reads {p : Prefixes} {mk : Word → Instr} {t : List Byte} (hp : ∀ v, (mk v).prefixes = p)
    (hb : ∀ v, (mk v).body.length = 3) :
    ReadsInstr p (t.length + 1) (andThen (takeWord t) fun v t => .ok (mk v, t)) :=
  .word fun _ _ h => .ok (hp _) (by rw [hb]; omega)

/-- One opcode byte and one more. -/
theorem byte_reads {p : Prefixes} {mk : Byte → Instr} {t : List Byte} (hp : ∀ v, (mk v).prefixes = p)
    (hb : ∀ v, (mk v).body.length = 2) :
    ReadsInstr p (t.length + 1) (andThen (takeByte t) fun v t => .ok (mk v, t)) :=
  .byte fun _ _ h => .ok (hp _) (by rw [hb]; omega)

theorem decodeC0_reads (p : Prefixes) (lo : Nat) (t : List Byte) :
    ReadsInstr p (t.length + 1) (decodeC0 p lo t) := by
  unfold decodeC0
  split
  · exact decodeShiftImm_reads p _ t
  · exact decodeShiftImm_reads p _ t
  · exact .only16 (word_reads (fun _ => rfl) fun _ => rfl)
  · exact .only16 (.one rfl rfl)
  · exact decodeMovImm_reads p _ t
  · exact decodeMovImm_reads p _ t
  · exact .error _

theorem decodeC8_reads (p : Prefixes) (lo : Nat) (t : List Byte) :
    ReadsInstr p (t.length + 1) (decodeC8 p lo t) := by
  unfold decodeC8
  split
  · exact .only16 (word_reads (fun _ => rfl) fun _ => rfl)
  · exact .only16 (.one rfl rfl)
  · exact .only16 (.one rfl rfl)
  · exact .error _

theorem decodeD0_reads (p : Prefixes) (lo : Nat) (t : List Byte) :
    ReadsInstr p (t.length + 1) (decodeD0 p lo t) := by
  unfold decodeD0
  split
  iterate 4 exact decodeShift_reads p _ _ rfl t
  exact .error _

theorem decodeE0_reads (p : Prefixes) (lo : Nat) (t : List Byte) :
    ReadsInstr p (t.length + 1) (decodeE0 p lo t) := by
  unfold decodeE0
  split
  iterate 4 exact byte_reads (fun _ => rfl) fun _ => rfl
  exact .error _

theorem decodeE8_reads (p : Prefixes) (lo : Nat) (t : List Byte) :
    ReadsInstr p (t.length + 1) (decodeE8 p lo t) := by
  unfold decodeE8
  split
  · exact .only16 (word_reads (fun _ => rfl) fun _ => rfl)
  · exact .rel fun _ _ h _ => .ok rfl (by simp only [Instr.body, jmpBytes_length]; omega)
  · exact .only16 (farPtr_reads (fun _ _ => rfl) fun _ _ => rfl)
  · exact .rel8 fun _ _ h h' => .ok rfl (by simp only [Instr.body, jmpBytes_length]; omega)
  iterate 4 exact .one rfl rfl

theorem decodeF0_reads (p : Prefixes) (lo : Nat) (t : List Byte) :
    ReadsInstr p (t.length + 1) (decodeF0 p lo t) := by
  unfold decodeF0
  split
  · exact .one rfl rfl
  · exact decodeGroupUnary_reads p _ t
  · exact decodeGroupUnary_reads p _ t
  · exact .error _

theorem decodeF8_reads (p : Prefixes) (lo : Nat) (t : List Byte) :
    ReadsInstr p (t.length + 1) (decodeF8 p lo t) := by
  unfold decodeF8
  split
  iterate 4 exact .one rfl rfl
  · exact decodeGroupFE_reads p t
  · exact decodeGroupFF_reads p t
  · exact .error _

/-- An instruction of two opcode bytes and nothing after them. -/
theorem ReadsInstr.two {p : Prefixes} {i : Instr} {t : List Byte} (hp : i.prefixes = p) (hb : i.body.length = 2) :
    ReadsInstr p (t.length + 2) (.ok (i, t)) :=
  .ok hp (by omega)

/-- The map of R152, after the escape byte 0FH. -/
theorem decodeTwoByte_reads (p : Prefixes) (t : List Byte) :
    ReadsInstr p (t.length + 1) (decodeTwoByte p t) := by
  unfold decodeTwoByte
  split
  · exact .error _
  · next b t =>
    rw [List.length_cons, Nat.add_assoc]
    split
    · exact jcc_near_reads p _ t
    · exact jcc_near_reads p _ t
    · exact .two rfl rfl
    · exact .two rfl rfl
    · exact decodeSlashR_reads (fun _ _ => rfl) fun _ _ => by simp [Instr.body]
    · exact .two rfl rfl
    · exact .two rfl rfl
    · exact decodeSlashR_reads (fun _ _ => rfl) fun _ _ => by simp [Instr.body]
    · exact decodeSlashR_reads (fun _ _ => rfl) fun _ _ => by simp [Instr.body]
    · split
      · exact decodeSlashR_reads (fun _ _ => rfl) fun _ _ => by simp [Instr.body]
      · exact .error _
    · exact decodeBtImm_reads p t
    · exact decodeSlashR_reads (fun _ _ => rfl) fun _ _ => by simp [Instr.body]
    · split
      · exact decodeSlashR_reads (fun _ _ => rfl) fun _ _ => by simp [Instr.body]
      · exact .error _
    · exact .error _

theorem decodeLow_reads (p : Prefixes) (hi lo : Nat) (t : List Byte) :
    ReadsInstr p (t.length + 1) (decodeLow p hi lo t) := by
  unfold decodeLow
  split
  · exact decodeAlu_reads p hi lo t
  · split
    iterate 3 exact .one rfl rfl
    · exact decodeTwoByte_reads p t
    iterate 4 exact .one rfl rfl
    exact .error _

/-- The map of R151: an instruction's bytes after its prefixes are those read. -/
theorem decodeOpcode_reads (p : Prefixes) (b : Byte) (t : List Byte) :
    ReadsInstr p (t.length + 1) (decodeOpcode p b t) := by
  unfold decodeOpcode
  dsimp only
  split
  iterate 4 exact .one rfl rfl
  · exact .error _
  · exact decode68_reads p _ t
  · exact jcc_short_reads p _ t
  · exact jcc_short_reads p _ t
  · exact decode80_reads p _ t
  · exact decode88_reads p _ t
  · exact decode90_reads p _ t
  · exact decode98_reads p _ t
  · exact decodeA0_reads p _ t
  · exact decodeA8_reads p _ t
  · exact .imm fun _ _ h => .ok rfl (by simp [Instr.body]; omega)
  · exact .imm fun _ _ h => .ok rfl (by simp [Instr.body]; omega)
  · exact decodeC0_reads p _ t
  · exact decodeC8_reads p _ t
  · exact decodeD0_reads p _ t
  · exact .error _
  · exact decodeE0_reads p _ t
  · exact decodeE8_reads p _ t
  · exact decodeF0_reads p _ t
  · exact decodeF8_reads p _ t
  · exact decodeLow_reads p _ _ t

/-- How many bytes the prefixes take (R120). -/
def Prefixes.size (p : Prefixes) : Nat := p.addr32.toNat + p.op32.toNat + p.seg.isSome.toNat

@[simp] theorem Prefixes.bytes_length (p : Prefixes) : p.bytes.length = p.size := by
  obtain ⟨op32, addr32, seg⟩ := p
  cases op32 <;> cases addr32 <;> cases seg <;> rfl

/-- The prefixes read, with those read before them, are the bytes they were read from. -/
theorem takePrefixes_reads : ∀ (t : List Byte) (p : Prefixes),
    Answers (fun q u => q.size + u.length = p.size + t.length) (takePrefixes p t)
  | [], _ => .error _
  | b :: t, p => by
    have more : ∀ q : Prefixes, q.size = p.size + 1 →
        Answers (fun r u => r.size + u.length = p.size + (b :: t).length) (takePrefixes q t) := fun q hq r u e => by
      have := takePrefixes_reads t q r u e
      simp only [List.length_cons]
      omega
    unfold takePrefixes
    split
    · split
      · exact .error _
      · next h => exact more _ (by simp [Prefixes.size, h]; omega)
    · split
      · split
        · exact .error _
        · next h => exact more _ (by simp [Prefixes.size, h]; omega)
      · split
        · exact .error _
        · split
          · split
            · exact .error _
            · next h => exact more _ (by simp [Prefixes.size, h])
          · exact .ok rfl

/-- The decoder reads as many bytes as the instruction it answers is long (R147). -/
theorem decode_length {bs : List Byte} {i : Instr} {rest : List Byte} (h : decode bs = .ok (i, rest)) :
    i.length + rest.length = bs.length := by
  have reads : Answers (fun i u => i.length + u.length = bs.length) (decode bs) := by
    refine (takePrefixes_reads bs noPrefixes).andThen fun p t hp => ?_
    split
    · exact .error _
    · next b t =>
      intro i u e
      obtain ⟨rfl, hb⟩ := decodeOpcode_reads p b t i u e
      simp only [Instr.length, encode, List.length_append, Prefixes.bytes_length, List.length_cons] at hp ⊢
      have : noPrefixes.size = 0 := rfl
      omega
  exact reads i rest h

end Sys2Proof
end

section
/-!
PROOFS. The invariant (R42, R80): what each operation ensures of memory and EIP, how each instruction ends, and what
a step does.
-/

namespace Sys2Proof.Machine

/-! ## What a computation that may trap ensures -/

/-- Every value the computation answers meets `P`; of a trap nothing is said. -/
def Ensures {α : Type} (P : α → Prop) (r : Except Trap α) : Prop := ∀ a, r = .ok a → P a

theorem Ensures.ok {α : Type} {P : α → Prop} {a : α} (h : P a) : Ensures P (.ok a) := by
  rintro _ ⟨⟩
  exact h

theorem Ensures.error {α : Type} {P : α → Prop} (t : Trap) : Ensures P (.error t) := by
  rintro _ ⟨⟩

/-- Nothing is asked of the value. -/
theorem Ensures.any {α : Type} (r : Except Trap α) : Ensures (fun _ => True) r := fun _ _ => trivial

/-- One computation after another. -/
theorem Ensures.bind {α β : Type} {P : α → Prop} {Q : β → Prop} {x : Except Trap α} {f : α → Except Trap β}
    (hx : Ensures P x) (hf : ∀ a, P a → Ensures Q (f a)) : Ensures Q (x >>= f) := by
  cases x with
  | error t => exact Ensures.error t
  | ok a => exact hf a (hx a rfl)

/-! ## Reads and writes keep memory canonical -/

/-- Memory is in its canonical form: the first half of the invariant. -/
def State.Canonical (s : State) : Prop := s.mem.wf = true

/-- The second part of an answer, a state, has canonical memory. -/
def CanonicalAfter {α : Type} (x : α × State) : Prop := x.2.Canonical

theorem checkLimit_ensures (off n : Nat) : Ensures (fun _ => off + n ≤ 0x10000) (checkLimit off n) := by
  unfold checkLimit
  split
  · next h => exact .ok h
  · exact .error _

theorem State.loadBytes_canonical {s : State} (h : s.Canonical) (a : Nat) (w : Width) :
    CanonicalAfter (s.loadBytes a w) := by
  obtain ⟨_, _, _, e⟩ := s.loadBytes_frame a w
  rw [CanonicalAfter, e]
  exact h

theorem State.readLinear_canonical {s : State} (h : s.Canonical) (a : Nat) (w : Width) :
    Ensures CanonicalAfter (s.readLinear a w) :=
  (Ensures.any _).bind fun _ _ => .ok (State.loadBytes_canonical h a w)

theorem State.memRead_canonical {s : State} (h : s.Canonical) (sr : SReg) (off : Nat) (w : Width) :
    Ensures CanonicalAfter (s.memRead sr off w) :=
  (Ensures.any _).bind fun _ _ => State.readLinear_canonical h _ w

/-- A write below 2^32. -/
theorem State.writeLinear_canonical {s : State} (h : s.Canonical) {a : Nat} {w : Width} (ha : a + w.bytes ≤ 2 ^ 32)
    (v : BitVec w.bits) : Ensures State.Canonical (s.writeLinear a w v) :=
  (Ensures.any _).bind fun _ _ => .ok (State.putBytes_wf _ s a h (by rwa [leBytes_length]))

/-- Every operand of a segment lies below 2^32 (R82). -/
theorem State.linear_add_le (s : State) (sr : SReg) {off n : Nat} (h : off + n ≤ 0x10000) :
    s.linear sr off + n ≤ 2 ^ 32 := by
  have := s.linear_le sr off
  omega

theorem State.memWrite_canonical {s : State} (h : s.Canonical) (sr : SReg) (off : Nat) (w : Width)
    (v : BitVec w.bits) : Ensures State.Canonical (s.memWrite sr off w v) :=
  (checkLimit_ensures off w.bytes).bind fun _ hl => State.writeLinear_canonical h (s.linear_add_le sr hl) v

theorem State.push_canonical {s : State} (h : s.Canonical) (w : Width) (v : BitVec w.bits) :
    Ensures State.Canonical (s.push w v) := by
  unfold State.push
  dsimp only
  split
  · next hl => exact State.writeLinear_canonical (s := s.setSp _) h (s.linear_add_le .ss hl) v
  · exact .error _

theorem State.pop_canonical {s : State} (h : s.Canonical) (w : Width) : Ensures CanonicalAfter (s.pop w) :=
  (Ensures.any _).bind fun _ _ => (State.readLinear_canonical h _ w).bind fun _ h1 => .ok h1

theorem State.readRM_canonical {s : State} (h : s.Canonical) (p : Prefixes) (rm : RM) (w : Width) :
    Ensures CanonicalAfter (s.readRM p rm w) := by
  cases rm with
  | reg r => exact .ok h
  | mem m => exact State.memRead_canonical h _ _ w

theorem State.writeRM_canonical {t : State} (h : t.Canonical) (s : State) (p : Prefixes) (rm : RM) (w : Width)
    (v : BitVec w.bits) : Ensures State.Canonical (s.writeRM t p rm w v) := by
  cases rm with
  | reg r => exact .ok h
  | mem m => exact State.memWrite_canonical h _ _ w v

theorem State.aluSrc_canonical {s : State} (h : s.Canonical) (p : Prefixes) (f : AluForm) :
    Ensures CanonicalAfter (s.aluSrc p f) := by
  cases f with
  | regRm w r rm => exact State.readRM_canonical h p rm w
  | _ => exact .ok h

/-- Both words of a far pointer: the state after the reads is the last part of the answer. -/
theorem State.readFar_canonical {s : State} (h : s.Canonical) (p : Prefixes) (m : Mem) :
    Ensures (fun x => CanonicalAfter x.2) (s.readFar p m) :=
  (Ensures.any _).bind fun _ _ => (State.memRead_canonical h _ _ _).bind fun _ h1 =>
    (State.memRead_canonical h1 _ _ _).bind fun _ h2 => .ok h2

theorem State.vector_canonical {s : State} (h : s.Canonical) (n : Byte) :
    Ensures (fun x => CanonicalAfter x.2) (s.vector n) :=
  (State.readLinear_canonical h _ _).bind fun _ h1 =>
    (State.readLinear_canonical h1 _ _).bind fun _ h2 => .ok h2

/-! ## Instructions that go on keep memory canonical -/

theorem State.binary_canonical {s : State} (h : s.Canonical) (p : Prefixes) (f : AluForm)
    (g : (n : Nat) → BitVec n → BitVec n → BitVec n × StatusWrite) :
    Ensures State.Canonical (s.binary p f g) :=
  (State.readRM_canonical h p f.dest f.width).bind fun _ h1 =>
    (State.aluSrc_canonical h1 p f).bind fun y h2 =>
      State.writeRM_canonical (t := y.2.writeStatus _) h2 s p f.dest f.width _

theorem State.unary_canonical {s : State} (h : s.Canonical) (p : Prefixes) (w : Width) (rm : RM)
    (g : BitVec w.bits → BitVec w.bits × StatusWrite) : Ensures State.Canonical (s.unary p w rm g) :=
  (State.readRM_canonical h p rm w).bind fun x h1 =>
    State.writeRM_canonical (t := x.2.writeStatus _) h1 s p rm w _

theorem State.compare_canonical {s : State} (h : s.Canonical) (p : Prefixes) (f : AluForm) :
    Ensures State.Canonical (s.compare p f) :=
  (State.readRM_canonical h p f.dest f.width).bind fun _ h1 =>
    (State.aluSrc_canonical h1 p f).bind fun _ h2 => .ok h2

theorem State.divide_canonical {s : State} (h : s.Canonical) (p : Prefixes) (w : Width) (rm : RM) :
    Ensures State.Canonical (s.divide p w rm) := by
  refine (State.readRM_canonical h p rm w).bind fun x h1 => ?_
  dsimp only
  split
  · exact .error _
  · split
    · exact .error _
    · exact .ok h1

theorem State.divideSigned_canonical {s : State} (h : s.Canonical) (p : Prefixes) (w : Width) (rm : RM) :
    Ensures State.Canonical (s.divideSigned p w rm) := by
  refine (State.readRM_canonical h p rm w).bind fun x h1 => ?_
  dsimp only
  split
  · exact .error _
  · split
    · exact .error _
    · exact .ok h1

theorem State.shiftOp_canonical {s : State} (h : s.Canonical) (p : Prefixes) (w : Width) (rm : RM) (n : Count)
    (g : Nat → CarryAnd w.bits → BitVec w.bits × StatusWrite) : Ensures State.Canonical (s.shiftOp p w rm n g) := by
  refine (State.readRM_canonical h p rm w).bind fun x h1 => ?_
  dsimp only
  split
  · exact .ok h1
  · exact State.writeRM_canonical (t := x.2.writeStatus _) h1 s p rm w _

theorem State.loadSreg_canonical {s : State} (h : s.Canonical) (sr : SReg) (v : Word) :
    (s.loadSreg sr v).Canonical := by
  unfold State.loadSreg
  split <;> exact h

theorem State.pushSeg_canonical {s : State} (h : s.Canonical) (w : Width) (v : Word) :
    Ensures State.Canonical (s.pushSeg w v) := by
  cases w with
  | byte | word => exact State.push_canonical h .word v
  | dword => exact State.push_canonical (s := s.drew 1) h .dword _

theorem State.enableInterrupts_canonical {s : State} (h : s.Canonical) : s.enableInterrupts.Canonical := by
  unfold State.enableInterrupts
  split <;> exact h

theorem State.loadAddress_canonical {s : State} (h : s.Canonical) (w : Width) (r : Reg) (rm : RM) :
    Ensures State.Canonical (s.loadAddress w r rm) := by
  cases rm with
  | reg _ => exact .error _
  | mem m => exact .ok h

theorem State.bitAt_canonical {s : State} (h : s.Canonical) (p : Prefixes) (rm : RM) (w : Width)
    (off : BitVec w.bits) : Ensures CanonicalAfter (s.bitAt p rm w off) := by
  cases rm with
  | reg r => exact .ok h
  | mem m =>
    refine Ensures.bind (P := CanonicalAfter) ?_ fun x h1 => .ok h1
    unfold State.bitString
    dsimp only
    split
    · exact .error _
    · exact State.memRead_canonical h _ _ w

theorem State.inFrom_canonical {s : State} (h : s.Canonical) (w : Width) (port : Word) :
    Ensures State.Canonical (s.inFrom w port) := by
  refine Ensures.bind (P := CanonicalAfter) ?_ fun x h1 => .ok h1
  exact (Ensures.any _).bind fun _ _ => .ok h

theorem State.ioWrite_canonical {s : State} (h : s.Canonical) (port : Word) (w : Width) (v : BitVec w.bits) :
    Ensures State.Canonical (s.ioWrite port w v) :=
  (Ensures.any _).bind fun _ _ => .ok h

/-! ## Control transfers keep the invariant -/

/-- A taken transfer to an offset of the segment. -/
theorem State.jump_inv {s : State} (h : s.Canonical) {v : Dword} (hv : v.toNat ≤ 0x10000) : (s.jump v).Inv :=
  ⟨h, hv⟩

/-- A word is an offset of the segment. -/
theorem toNat_setWidth_word_le (v : Word) : (v.setWidth 32).toNat ≤ 0x10000 := by
  have := v.isLt
  simp only [BitVec.toNat_setWidth]
  omega

theorem State.jumpFar_inv {s : State} (h : s.Canonical) (sel off : Word) : (s.jumpFar sel off).Inv :=
  ⟨h, toNat_setWidth_word_le off⟩

/-- The target of a relative transfer is an offset of the segment (R321). -/
theorem State.target_le (s : State) (len : Nat) (t : Rel) : (s.target len t).toNat ≤ 0x10000 := by
  have h : (s.target len t).toNat ≤ 0xFFFF := by
    rw [State.target, BitVec.toNat_and]
    exact Nat.and_le_right
  omega

theorem State.callNear_inv {s : State} (h : s.Canonical) (len : Nat) {dest : Dword} (hd : dest.toNat ≤ 0x10000) :
    Ensures State.Inv (s.callNear len dest) :=
  (State.push_canonical h _ _).bind fun _ h1 => .ok (State.jump_inv h1 hd)

theorem State.callFar_inv {s : State} (h : s.Canonical) (len : Nat) (sel off : Word) :
    Ensures State.Inv (s.callFar len sel off) :=
  (Ensures.any _).bind fun _ _ => (State.push_canonical h _ _).bind fun _ h1 =>
    (State.push_canonical h1 _ _).bind fun _ h2 => .ok (State.jumpFar_inv h2 sel off)

theorem State.returnNear_inv {s : State} (h : s.Canonical) (n : Word) : Ensures State.Inv (s.returnNear n) :=
  (State.pop_canonical h _).bind fun x h1 => .ok ⟨h1, toNat_setWidth_word_le x.1⟩

theorem State.returnFar_inv {s : State} (h : s.Canonical) (n : Word) : Ensures State.Inv (s.returnFar n) :=
  (State.pop_canonical h _).bind fun x h1 => (State.pop_canonical h1 _).bind fun _ h2 =>
    .ok ⟨h2, toNat_setWidth_word_le x.1⟩

theorem State.returnFromInterrupt_inv {s : State} (h : s.Canonical) : Ensures State.Inv s.returnFromInterrupt :=
  (State.pop_canonical h _).bind fun x h1 => (State.pop_canonical h1 _).bind fun _ h2 =>
    (State.pop_canonical h2 _).bind fun _ h3 => .ok ⟨h3, toNat_setWidth_word_le x.1⟩

theorem State.interruptSequence_inv {s : State} (h : s.Canonical) (n : Byte) (ret : Word) (de : Bool) :
    Ensures State.Inv (s.interruptSequence n ret de) :=
  (State.vector_canonical h n).bind fun x h0 => (Ensures.any _).bind fun _ _ =>
    (State.push_canonical (s := x.2.2.drew 7) h0 _ _).bind fun _ h1 => (State.push_canonical h1 _ _).bind fun _ h2 =>
      (State.push_canonical h2 _ _).bind fun _ h3 => .ok ⟨h3, toNat_setWidth_word_le x.2.1⟩

/-! ## The ends of an instruction -/

/-- Every next state of an outcome meets the invariant. -/
def NextInv (o : Host.Outcome State Fault Refusal) : Prop := ∀ t, o = .next t → t.Inv

theorem NextInv.next {t : State} (h : t.Inv) : NextInv (.next t) := by
  rintro _ ⟨⟩
  exact h

theorem State.interrupt_inv {s : State} (h : s.Inv) (n : Byte) (ret : Word) (de : Bool) :
    NextInv (s.interrupt n ret de) := by
  unfold State.interrupt
  split
  · next t e => exact .next (State.interruptSequence_inv h.1 n ret de t e)
  · rintro _ ⟨⟩
  · exact .next h

theorem State.deliver_inv {s : State} (h : s.Inv) (t : Trap) : NextInv (s.deliver t) := by
  cases t with
  | exc n => exact State.interrupt_inv h _ _ _
  | divideError => exact State.interrupt_inv h _ _ _
  | shutdown => exact .next h
  | refuse r => rintro _ ⟨⟩

/-- The next instruction is in the segment, or just past it, when this one lies in it. -/
theorem State.nextIp_le {s : State} {len : Nat} (h : s.eip.toNat + len ≤ 0x10000) :
    (s.nextIp len).toNat ≤ 0x10000 := by
  simp only [State.nextIp, BitVec.toNat_add, BitVec.toNat_ofNat]
  omega

theorem State.retire_inv {s : State} {len : Nat} {r : Except Trap State} (h : s.Inv)
    (hl : s.eip.toNat + len ≤ 0x10000) (hr : Ensures State.Canonical r) : NextInv (s.retire len r) := by
  cases r with
  | ok t => exact .next ⟨hr t rfl, State.nextIp_le hl⟩
  | error t => exact State.deliver_inv h t

theorem State.retireJump_inv {s : State} {r : Except Trap State} (h : s.Inv) (hr : Ensures State.Inv r) :
    NextInv (s.retireJump r) := by
  cases r with
  | ok t => exact .next (hr t rfl)
  | error t => exact State.deliver_inv h t

theorem State.branch_inv {s : State} {len : Nat} (h : s.Inv) (hl : s.eip.toNat + len ≤ 0x10000) (c : Cond)
    (t : Rel) : NextInv (s.branch c len t) := by
  unfold State.branch
  split
  · exact .next (State.jump_inv h.1 (s.target_le len t))
  · exact .next ⟨h.1, State.nextIp_le hl⟩

/-- How an instruction ends: it goes on after an effect that keeps memory canonical, it transfers control by an
effect that keeps the invariant, or it is a conditional jump. -/
theorem exec_cases (i : Instr) {s : State} (h : s.Canonical) :
    (∃ r, exec i s = s.retire i.length r ∧ Ensures State.Canonical r) ∨
    (∃ r, exec i s = s.retireJump r ∧ Ensures State.Inv r) ∨
    ∃ c t, exec i s = s.branch c i.length t := by
  cases i with
  | add p f | or p f | adc p f | sbb p f | and p f | sub p f | xor p f =>
    exact .inl ⟨_, rfl, State.binary_canonical h p f _⟩
  | cmp p f => exact .inl ⟨_, rfl, State.compare_canonical h p f⟩
  | test p f =>
    exact .inl ⟨_, rfl, (State.readRM_canonical h p f.left f.width).bind fun _ h1 => .ok h1⟩
  | not p w rm | neg p w rm | incRm p w rm | decRm p w rm => exact .inl ⟨_, rfl, State.unary_canonical h p w rm _⟩
  | incR p r =>
    exact .inl ⟨s.unary p p.opSize (.reg r) incremented, rfl, State.unary_canonical h p p.opSize (.reg r) _⟩
  | decR p r =>
    exact .inl ⟨s.unary p p.opSize (.reg r) decremented, rfl, State.unary_canonical h p p.opSize (.reg r) _⟩
  | mul p w rm | imulAcc p w rm =>
    exact .inl ⟨_, rfl, (State.readRM_canonical h p rm w).bind fun _ h1 => .ok h1⟩
  | imulRRm p r rm | btRmImm p rm r =>
    exact .inl ⟨_, rfl, (State.readRM_canonical h p rm p.opSize).bind fun _ h1 => .ok h1⟩
  | imulRRmImm8 p r rm imm =>
    exact .inl ⟨_, rfl, (State.readRM_canonical h p rm p.opSize).bind fun _ h1 => .ok h1⟩
  | imulRRmImm p w r rm imm =>
    exact .inl ⟨_, rfl, (State.readRM_canonical h p rm w).bind fun _ h1 => .ok h1⟩
  | div p w rm => exact .inl ⟨_, rfl, State.divide_canonical h p w rm⟩
  | idiv p w rm => exact .inl ⟨_, rfl, State.divideSigned_canonical h p w rm⟩
  | btRmR p rm r => exact .inl ⟨_, rfl, (State.bitAt_canonical h p rm _ _).bind fun _ h1 => .ok h1⟩
  | rol p w rm n | ror p w rm n | rcl p w rm n | rcr p w rm n | sal p w rm n | shl p w rm n | shr p w rm n
  | sar p w rm n => exact .inl ⟨_, rfl, State.shiftOp_canonical h p w rm n _⟩
  | movRmR p w rm r | movRmImm p w rm r => exact .inl ⟨_, rfl, State.writeRM_canonical h s p rm w _⟩
  | movRRm p w r rm => exact .inl ⟨_, rfl, (State.readRM_canonical h p rm w).bind fun _ h1 => .ok h1⟩
  | movRmSreg p rm sr => exact .inl ⟨_, rfl, State.writeRM_canonical h s p rm .word _⟩
  | movSregRm p sr rm =>
    exact .inl ⟨_, rfl, (State.readRM_canonical h p rm .word).bind fun _ h1 =>
      .ok (State.loadSreg_canonical h1 sr _)⟩
  | movAccMoffs p w off => exact .inl ⟨_, rfl, (State.memRead_canonical h _ _ w).bind fun _ h1 => .ok h1⟩
  | movMoffsAcc p w off => exact .inl ⟨_, rfl, State.memWrite_canonical h _ _ w _⟩
  | movRImm | xchgAcc | cwd | cdq | stc | clc | cmc | cli | nop =>
    refine .inl ⟨_, rfl, .ok ?_⟩
    exact h
  | xchgRmR p w rm r =>
    exact .inl ⟨_, rfl, (State.readRM_canonical h p rm w).bind fun _ h1 =>
      (State.writeRM_canonical h1 s p rm w _).bind fun _ h2 => .ok h2⟩
  | pushRm p rm =>
    exact .inl ⟨_, rfl, (State.readRM_canonical h p rm p.opSize).bind fun _ h1 => State.push_canonical h1 _ _⟩
  | pushR p r => exact .inl ⟨_, rfl, State.push_canonical h _ _⟩
  | pushImm p w imm => exact .inl ⟨_, rfl, State.push_canonical h w imm⟩
  | pushSreg p sr => exact .inl ⟨_, rfl, State.pushSeg_canonical h _ _⟩
  | popRm p rm =>
    refine .inl ⟨_, rfl, ?_⟩
    split
    · exact .error _
    · exact (State.pop_canonical h p.opSize).bind fun _ h1 => State.writeRM_canonical h1 s p rm p.opSize _
  | popR p r => exact .inl ⟨_, rfl, (State.pop_canonical h p.opSize).bind fun _ h1 => .ok h1⟩
  | popSreg p sr =>
    exact .inl ⟨_, rfl, (State.pop_canonical h p.opSize).bind fun _ h1 => .ok (State.loadSreg_canonical h1 sr _)⟩
  | movsx8 p r rm | movzx8 p r rm =>
    exact .inl ⟨_, rfl, (State.readRM_canonical h p rm .byte).bind fun _ h1 => .ok h1⟩
  | movsx16 p r rm | movzx16 p r rm =>
    exact .inl ⟨_, rfl, (State.readRM_canonical h p rm .word).bind fun _ h1 => .ok h1⟩
  | sti p => exact .inl ⟨_, rfl, .ok (State.enableInterrupts_canonical h)⟩
  | inImm p w port => exact .inl ⟨_, rfl, State.inFrom_canonical h w _⟩
  | inDx p w => exact .inl ⟨_, rfl, State.inFrom_canonical h w _⟩
  | outImm p w port => exact .inl ⟨_, rfl, State.ioWrite_canonical h _ w _⟩
  | outDx p w => exact .inl ⟨_, rfl, State.ioWrite_canonical h _ w _⟩
  | lea p r rm => exact .inl ⟨_, rfl, State.loadAddress_canonical h _ r rm⟩
  | jmpRel p t => exact .inr (.inl ⟨_, rfl, .ok (State.jump_inv h (s.target_le _ t))⟩)
  | jmpRm p rm =>
    exact .inr (.inl ⟨_, rfl, (State.readRM_canonical h p rm .word).bind fun x h1 =>
      .ok (State.jump_inv h1 (toNat_setWidth_word_le x.1))⟩)
  | jmpPtr p sel off => exact .inr (.inl ⟨_, rfl, .ok (State.jumpFar_inv h sel off)⟩)
  | jmpMem p m =>
    exact .inr (.inl ⟨_, rfl, (State.readFar_canonical h p m).bind fun _ h1 => .ok (State.jumpFar_inv h1 _ _)⟩)
  | callRel p rel => exact .inr (.inl ⟨_, rfl, State.callNear_inv h _ (s.target_le _ _)⟩)
  | callRm p rm =>
    exact .inr (.inl ⟨_, rfl, (State.readRM_canonical h p rm .word).bind fun x h1 =>
      State.callNear_inv h1 _ (toNat_setWidth_word_le x.1)⟩)
  | callPtr p sel off => exact .inr (.inl ⟨_, rfl, State.callFar_inv h _ sel off⟩)
  | callMem p m =>
    exact .inr (.inl ⟨_, rfl, (State.readFar_canonical h p m).bind fun _ h1 => State.callFar_inv h1 _ _ _⟩)
  | retFar p => exact .inr (.inl ⟨_, rfl, State.returnFar_inv h 0⟩)
  | retFarImm p n => exact .inr (.inl ⟨_, rfl, State.returnFar_inv h n⟩)
  | retNear p => exact .inr (.inl ⟨_, rfl, State.returnNear_inv h 0⟩)
  | retNearImm p n => exact .inr (.inl ⟨_, rfl, State.returnNear_inv h n⟩)
  | iret p => exact .inr (.inl ⟨_, rfl, State.returnFromInterrupt_inv h⟩)
  | jo p t | jno p t | jb p t | jc p t | jnae p t | jae p t | jnb p t | jnc p t | je p t | jz p t | jne p t
  | jnz p t | jbe p t | jna p t | ja p t | jnbe p t | js p t | jns p t | jp p t | jpe p t | jnp p t | jpo p t
  | jl p t | jnge p t | jge p t | jnl p t | jle p t | jng p t | jg p t | jnle p t =>
    exact .inr (.inr ⟨_, _, rfl⟩)

/-- An instruction whose bytes lie in the segment keeps the invariant. -/
theorem exec_inv {i : Instr} {s : State} (h : s.Inv) (hl : s.eip.toNat + i.length ≤ 0x10000) :
    NextInv (exec i s) := by
  obtain ⟨r, e, hr⟩ | ⟨r, e, hr⟩ | ⟨c, t, e⟩ := exec_cases i h.1
  · exact e ▸ State.retire_inv h hl hr
  · exact e ▸ State.retireJump_inv h hr
  · exact e ▸ State.branch_inv h hl c t

/-! ## The step -/

/-- What a step that goes on has done (R415): RESET, an external interrupt, an instruction, or the exception of
its fetch. -/
theorem step_cases {s t : State} (h : step s = .next t) :
    t = s.afterReset ∨
    (∃ u n, s.recognised = some (u, n) ∧ u.interrupt n (u.eip.extractLsb' 0 16) false = .next t) ∨
    (∃ i, s.fetch = .ok i ∧ exec i ((s.fetched i.length).begin i) = .next t) ∨
    ∃ e, s.fetch = .error e ∧ (s.fetched s.codeRoom).closeWindows.deliver e = .next t := by
  unfold step at h
  split at h
  · cases h
    exact .inl rfl
  · split at h
    · cases h
    · split at h
      · cases h
      · split at h
        · next u n hn => exact .inr (.inl ⟨u, n, hn, h⟩)
        · split at h
          · next i hi => exact .inr (.inr (.inl ⟨i, hi, h⟩))
          · next e he => exact .inr (.inr (.inr ⟨e, he, h⟩))

/-- Recognising an external interrupt uses up an NMI event at most (R412). -/
theorem State.recognised_frame {s u : State} {n : Byte} (h : s.recognised = some (u, n)) :
    ∃ k, u = { s with nmi := k } := by
  unfold State.recognised at h
  split at h
  · cases h
    exact ⟨_, rfl⟩
  · split at h
    · split at h
      · cases h
        exact ⟨s.nmi, rfl⟩
      · cases h
    · cases h

/-- RESET keeps memory, and its EIP lies in the segment (R450, R453). -/
theorem State.afterReset_inv {s : State} (h : s.Canonical) : s.afterReset.Inv :=
  ⟨h, (by decide : State.reset.eip.toNat ≤ 0x10000)⟩

theorem State.fetched_inv {s : State} (h : s.Inv) (n : Nat) : (s.fetched n).Inv := by
  rw [State.Inv, State.fetched_mem, State.fetched_eip]
  exact h

/-- An instruction that is fetched lies in the segment: the fetch sees no byte past offset 0FFFFH (R42, U10). -/
theorem State.fetch_in_segment {s : State} {i : Instr} (h : s.eip.toNat ≤ 0x10000) (hf : s.fetch = .ok i) :
    s.eip.toNat + i.length ≤ 0x10000 := by
  obtain ⟨rest, hd⟩ := State.decode_of_fetch hf
  have hlen : i.length + rest.length = s.codeRoom := by
    rw [decode_length hd, State.codeBytes, State.loadCode_length]
  have hroom : s.codeRoom ≤ 0x10000 - s.eip.toNat := Nat.min_le_right _ _
  omega

/-- Settles O8: by `step_cases`; an instruction keeps the invariant because it is fetched from inside the segment. -/
theorem invariantKeptByStep : Obligations.InvariantKeptByStep := by
  intro s t h hstep
  obtain rfl | ⟨u, n, hn, e⟩ | ⟨i, hi, e⟩ | ⟨tr, -, e⟩ := step_cases hstep
  · exact State.afterReset_inv h.1
  · obtain ⟨k, rfl⟩ := State.recognised_frame hn
    exact State.interrupt_inv (s := { s with nmi := k }) h n _ false t e
  · have hl : ((s.fetched i.length).begin i).eip.toNat + i.length ≤ 0x10000 := by
      rw [State.begin_eip, State.fetched_eip]
      exact State.fetch_in_segment h.2 hi
    exact exec_inv (s := (s.fetched i.length).begin i) (State.fetched_inv h _) hl t e
  · exact State.deliver_inv (s := (s.fetched s.codeRoom).closeWindows) (State.fetched_inv h _) tr t e

end Sys2Proof.Machine
end

section
/-!
PROOFS. Memory as the program sees it: bytes stored and read back (R84, R85), RESET, and the limit of an operand
(R90, D3).
-/

namespace Sys2Proof.Machine

/-- Settles O15: `leBytes` gives the bytes of the value in the order `Memory.read` puts them together again. -/
theorem memoryStoresLittleEndian : Obligations.MemoryStoresLittleEndian := by
  intro m a w v hm ha
  have inside : ∀ k, k < w.bytes → (m.setBytes a (leBytes w v)).get (a + k) = v.extractLsb' (8 * k) 8 :=
    fun _ hk => Memory.get_store_inside hm ha hk
  have outside : ∀ b, b < a ∨ a + w.bytes ≤ b → (m.setBytes a (leBytes w v)).get b = m.get b :=
    fun _ hb => Memory.get_store_outside hm ha hb
  have hlen : a + (leBytes w v).length ≤ 2 ^ 32 := by rwa [leBytes_length]
  exact ⟨Memory.read_of_bytes inside, inside, outside, Memory.wf_setBytes _ hm hlen⟩

/-- RESET takes EIP from a word, so that it lies in the segment (R451). -/
theorem State.resetWith_inv {i : InitState} (h : i.mem.wf = true) : (State.resetWith i).Inv :=
  ⟨h, toNat_setWidth_word_le i.ip⟩

/-- Settles O7: the INIT_STATE of this model lists no byte, which is a canonical memory. -/
theorem invariantAtReset : Obligations.InvariantAtReset :=
  ⟨fun _ => State.resetWith_inv, State.resetWith_inv rfl⟩

/-! ## Where a computation stops -/

/-- What comes after a trap is not done. -/
theorem bind_of_error {α β : Type} {x : Except Trap α} {f : α → Except Trap β} {t : Trap} (h : x = .error t) :
    (x >>= f) = .error t := by
  rw [h]
  rfl

/-- After an answer the rest goes on with it. -/
theorem bind_of_ok {α β : Type} {x : Except Trap α} {f : α → Except Trap β} {a : α} (h : x = .ok a) :
    (x >>= f) = f a := by
  rw [h]
  rfl

/-- An instruction whose effect is an exception raises it with its own offset. -/
theorem State.raises.of_retire {s : State} {i : Instr} {len : Nat} {r : Except Trap State} {n : Byte}
    (hr : r = .error (.exc n)) (he : exec i s = s.retire len r) : s.raises i n := by
  rw [State.raises, he, hr, State.retire_exc]

/-- A control transfer whose effect is an exception raises it with its own offset. -/
theorem State.raises.of_retireJump {s : State} {i : Instr} {r : Except Trap State} {n : Byte}
    (hr : r = .error (.exc n)) (he : exec i s = s.retireJump r) : s.raises i n := by
  rw [State.raises, he, hr]
  rfl

/-- An instruction raises the exception of what it does first. -/
theorem State.raises.of_first {s : State} {i : Instr} {len : Nat} {α : Type} {x : Except Trap α}
    {f : α → Except Trap State} {n : Byte} (hx : x = .error (.exc n)) (he : exec i s = s.retire len (x >>= f)) :
    s.raises i n :=
  State.raises.of_retire (bind_of_error hx) he

/-! ## The two-operand forms (R243) -/

/-- Both operands of a two-operand form read, DEST first, and the state after the reads. -/
def State.readForm (s : State) (p : Prefixes) (f : AluForm) :
    Except Trap (BitVec f.width.bits × BitVec f.width.bits × State) := do
  let (a, s1) ← s.readRM p f.dest f.width
  let (b, s2) ← s1.aluSrc p f
  .ok (a, b, s2)

/-- A two-operand instruction reads both operands before it does anything else. -/
theorem State.binary_of_readForm {s : State} {p : Prefixes} {f : AluForm} {t : Trap}
    (h : s.readForm p f = .error t) (g : (n : Nat) → BitVec n → BitVec n → BitVec n × StatusWrite) :
    s.binary p f g = .error t := by
  have e : s.binary p f g = s.readForm p f >>= fun x =>
      s.writeRM (x.2.2.writeStatus (g _ x.1 x.2.1).2) p f.dest f.width (g _ x.1 x.2.1).1 := by
    simp only [State.binary, State.readForm, bind_assoc]
    rfl
  exact e.trans (bind_of_error h)

/-- CMP reads its operands as the instructions that write do. -/
theorem State.compare_of_readForm {s : State} {p : Prefixes} {f : AluForm} {t : Trap}
    (h : s.readForm p f = .error t) : s.compare p f = .error t := by
  have e : s.compare p f = s.readForm p f >>= fun x => .ok (x.2.2.writeStatus (subFlags x.1 x.2.1 false)) := by
    simp only [State.compare, State.readForm, bind_assoc]
    rfl
  exact e.trans (bind_of_error h)

/-- DEST is read first: its trap is that of the form. -/
theorem State.readForm_of_dest {s : State} {p : Prefixes} {f : AluForm} {t : Trap}
    (h : s.readRM p f.dest f.width = .error t) : s.readForm p f = .error t :=
  bind_of_error h

/-- `op r,r/m` reads a register as DEST, so that a trap of its SRC is that of the form. -/
theorem State.readForm_of_source {s : State} {p : Prefixes} {w : Width} {r : Reg} {rm : RM} {t : Trap}
    (h : s.readRM p rm w = .error t) : s.readForm p (.regRm w r rm) = .error t :=
  (bind_of_ok (x := s.readRM p (.reg r) w) rfl).trans (bind_of_error h)

/-- Every instruction of R243 raises the exception of a form that cannot be read. -/
theorem State.twoOperand_raises {s : State} {p : Prefixes} {f : AluForm} {n : Byte}
    (h : s.readForm p f = .error (.exc n)) :
    (s.raises (.add p f) n ∧ s.raises (.adc p f) n ∧ s.raises (.sub p f) n ∧ s.raises (.sbb p f) n) ∧
    s.raises (.cmp p f) n ∧ s.raises (.and p f) n ∧ s.raises (.or p f) n ∧ s.raises (.xor p f) n := by
  have hb : ∀ g, s.binary p f g = .error (.exc n) := State.binary_of_readForm h
  have hc : s.compare p f = .error (.exc n) := State.compare_of_readForm h
  exact ⟨⟨.of_retire (hb _) rfl, .of_retire (hb _) rfl, .of_retire (hb _) rfl,
    .of_retire (hb _) rfl⟩, .of_retire hc rfl, .of_retire (hb _) rfl,
    .of_retire (hb _) rfl, .of_retire (hb _) rfl⟩

/-! ## The one-operand forms and the moves (R137) -/

/-- The one-operand, shift and move forms whose r/m operand has the width `w`, TEST and IMUL r,r/m,imm: they
read it first or only write it. -/
theorem State.operand_past_raises {s : State} {p : Prefixes} {w : Width} {m : Mem}
    (h : 0x10000 < (s.addr m).toNat + w.bytes) (r : Reg) (imm : BitVec w.bits) (n : Count) :
    (s.raises (.test p (.rmImm w (.mem m) imm)) 13 ∧ s.raises (.test p (.rmReg w (.mem m) r)) 13) ∧
    (s.raises (.incRm p w (.mem m)) 13 ∧ s.raises (.decRm p w (.mem m)) 13 ∧ s.raises (.neg p w (.mem m)) 13 ∧
      s.raises (.not p w (.mem m)) 13) ∧
    (s.raises (.mul p w (.mem m)) 13 ∧ s.raises (.imulAcc p w (.mem m)) 13 ∧
      s.raises (.imulRRmImm p w r (.mem m) imm) 13 ∧ s.raises (.div p w (.mem m)) 13 ∧
      s.raises (.idiv p w (.mem m)) 13) ∧
    (s.raises (.sal p w (.mem m) n) 13 ∧ s.raises (.shl p w (.mem m) n) 13 ∧ s.raises (.shr p w (.mem m) n) 13 ∧
      s.raises (.sar p w (.mem m) n) 13) ∧
    (s.raises (.rol p w (.mem m) n) 13 ∧ s.raises (.ror p w (.mem m) n) 13 ∧ s.raises (.rcl p w (.mem m) n) 13 ∧
      s.raises (.rcr p w (.mem m) n) 13) ∧
    s.raises (.movRmR p w (.mem m) r) 13 ∧ s.raises (.movRRm p w r (.mem m)) 13 ∧
      s.raises (.movRmImm p w (.mem m) imm) 13 ∧ s.raises (.xchgRmR p w (.mem m) r) 13 := by
  have hr : s.readRM p (.mem m) w = .error (.exc 13) := State.readRM_past h
  have hw : ∀ v, s.writeRM s p (.mem m) w v = .error (.exc 13) := fun _ => State.memWrite_past h
  exact ⟨⟨.of_first hr rfl, .of_first hr rfl⟩,
    ⟨.of_first hr rfl, .of_first hr rfl, .of_first hr rfl, .of_first hr rfl⟩,
    ⟨.of_first hr rfl, .of_first hr rfl, .of_first hr rfl, .of_first hr rfl, .of_first hr rfl⟩,
    ⟨.of_first hr rfl, .of_first hr rfl, .of_first hr rfl, .of_first hr rfl⟩,
    ⟨.of_first hr rfl, .of_first hr rfl, .of_first hr rfl, .of_first hr rfl⟩,
    .of_retire (hw _) rfl, .of_first hr rfl, .of_retire (hw _) rfl, .of_first hr rfl⟩

/-- POP r/m whose address does not have ESP as its base is a pop and a write (R214, U9). -/
theorem exec_popRm {s : State} {p : Prefixes} {rm : RM} (h : rm.espBase = false) :
    exec (.popRm p rm) s = s.retire (Instr.popRm p rm).length
      (s.pop p.opSize >>= fun x => s.writeRM x.2 p rm p.opSize x.1) :=
  congrArg (s.retire _) (if_neg (ne_true_of_eq_false h))

/-- POP m pops its item before it looks at its operand. -/
theorem State.popRm_operand_past_raises {s : State} {p : Prefixes} {m : Mem} (hesp : m.espBase = false)
    (hpop : s.canPop 0 p.opSize.bytes) (h : 0x10000 < (s.addr m).toNat + p.opSize.bytes) :
    s.raises (.popRm p (.mem m)) 13 :=
  .of_retire ((bind_of_ok (State.pop_ok hpop)).trans (State.memWrite_past h)) (exec_popRm hesp)

/-- A far pointer is checked against the limit whole (R90, R328). -/
theorem State.readFar_past {s : State} {p : Prefixes} {m : Mem} (h : 0x10000 < (s.addr m).toNat + 4) :
    s.readFar p m = .error (.exc 13) :=
  bind_of_error (checkLimit_past h)

/-- Settles O16: every form first reads its operand or, if it does not read it, writes it, and the access past the
limit raises; POP m pops first. -/
theorem operandPastLimitRaises : Obligations.OperandPastLimitRaises := by
  intro s p w m r sr imm i8 n off x past binary
  have read : ∀ {w : Width}, past w.bytes → s.readRM p x w = .error (.exc 13) := State.readRM_past
  refine ⟨fun h => ?_, fun h => ?_, fun h => ?_, fun h => ?_, fun h => ?_, fun h => ?_⟩
  · exact ⟨⟨State.twoOperand_raises (State.readForm_of_dest (read h)),
      State.twoOperand_raises (State.readForm_of_dest (read h)),
      State.twoOperand_raises (State.readForm_of_dest (read h)),
      State.twoOperand_raises (State.readForm_of_source (read h))⟩,
      State.operand_past_raises h r imm n⟩
  · have hr := read (w := p.opSize) h
    exact ⟨.of_first hr rfl, .of_first hr rfl, .of_first hr rfl, .of_first hr rfl,
      fun hesp hpop => State.popRm_operand_past_raises hesp hpop h⟩
  · have hr := read (w := .byte) h
    exact ⟨.of_first hr rfl, .of_first hr rfl⟩
  · have hr := read (w := .word) h
    exact ⟨.of_first hr rfl, .of_first hr rfl, .of_retire (State.memWrite_past h) rfl, .of_first hr rfl,
      .of_retireJump (bind_of_error hr) rfl, .of_retireJump (bind_of_error hr) rfl⟩
  · have hr : s.readFar p m = .error (.exc 13) := State.readFar_past h
    exact ⟨.of_retireJump (bind_of_error hr) rfl, .of_retireJump (bind_of_error hr) rfl⟩
  · exact ⟨.of_first (State.memRead_past h) rfl, .of_retire (State.memWrite_past h) rfl⟩

end Sys2Proof.Machine
end

section
/-!
PROOFS. The top of the stack: a push that does not fit shuts down (R98, D6), a pop that runs past it raises (U11).
-/

namespace Sys2Proof.Machine

/-! ## Pushes -/

/-- An instruction whose push does not fit leaves the processor in shutdown and changes nothing else (R407, R419). -/
theorem exec_shutdown_of_retire {s : State} {i : Instr} {len : Nat} {r : Except Trap State}
    (hr : r = .error .shutdown) (he : exec i s = s.retire len r) :
    exec i s = .next { s with shutdown := true } := by
  rw [he, hr]
  rfl

/-- A control transfer whose push does not fit leaves the processor in shutdown and changes nothing else. -/
theorem exec_shutdown_of_retireJump {s : State} {i : Instr} {r : Except Trap State}
    (hr : r = .error .shutdown) (he : exec i s = s.retireJump r) :
    exec i s = .next { s with shutdown := true } := by
  rw [he, hr]
  rfl

/-- An interrupt sequence whose frame does not fit leaves the processor in shutdown and changes nothing else (R402). -/
theorem State.interrupt_shutdown {s : State} {n : Byte} {ret : Word} {de : Bool}
    (h : s.interruptSequence n ret de = .error .shutdown) :
    s.interrupt n ret de = .next { s with shutdown := true } := by
  simp only [State.interrupt, h]

/-- With SP = 2k + 1 the word pushed after `k` others starts at the last offset of the segment and does not fit. -/
theorem State.pushed_word_past {s : State} (k : Nat) (h : s.sp = BitVec.ofNat 16 (2 * k + 1)) :
    0x10000 < s.below (2 * k + 2) + 2 := by
  simp only [State.below, h, BitVec.toNat_sub, BitVec.toNat_ofNat]
  omega

/-- PUSH Sreg pushes two or four bytes, the upper two of four being free (R213, U3). -/
theorem State.pushSeg_past {s : State} {p : Prefixes} {v : Word}
    (h : 0x10000 < s.below p.opSize.bytes + p.opSize.bytes) : s.pushSeg p.opSize v = .error .shutdown := by
  obtain ⟨op32, a32, seg⟩ := p
  cases op32 with
  | false => exact State.push_past (w := .word) h
  | true => exact State.push_past (s := s.drew 1) (w := .dword) h

theorem State.callNear_past {s : State} {len : Nat} {dest : Dword} (h : s.sp = 1) :
    s.callNear len dest = .error .shutdown :=
  bind_of_error (State.push_past (w := .word) (State.pushed_word_past 0 h))

/-- The room of both words of a far call is checked before either is pushed (R331). -/
theorem State.callFar_past {s : State} {len : Nat} {sel off : Word} (h : s.sp = 1 ∨ s.sp = 3) :
    s.callFar len sel off = .error .shutdown := by
  obtain ⟨k, hk, hs⟩ : ∃ k, k < 2 ∧ s.sp = BitVec.ofNat 16 (2 * k + 1) := by
    rcases h with h | h
    · exact ⟨0, by decide, h⟩
    · exact ⟨1, by decide, h⟩
  exact bind_of_error (State.checkFrame_past hk (State.pushed_word_past k hs))

/-- A part of plain memory is plain memory. -/
theorem State.plain.part {s : State} {a n k j : Nat} (h : s.plain a n) (hk : k + j ≤ n) : s.plain (a + k) j :=
  fun i hi => by
    rw [Nat.add_assoc]
    exact h (k + i) (by omega)

/-- An entry of the interrupt table in plain memory: selector and offset, and no change of the state (R401). -/
theorem State.vector_ok {s : State} {n : Byte} (h : s.plain (4 * n.toNat) 4) :
    s.vector n = .ok (s.mem.read (4 * n.toNat + 2) .word, s.mem.read (4 * n.toNat) .word, s) := by
  have hoff : s.readLinear (4 * n.toNat) .word = .ok (s.mem.read (4 * n.toNat) .word, s) :=
    State.readLinear_ok (h.part (k := 0) (by decide))
  have hsel : s.readLinear (4 * n.toNat + 2) .word = .ok (s.mem.read (4 * n.toNat + 2) .word, s) :=
    State.readLinear_ok (h.part (k := 2) (by decide))
  simp only [State.vector, tableBase, Nat.zero_add]
  exact (bind_of_ok hoff).trans (bind_of_ok hsel)

/-- The room of the whole frame is checked after the table is read and before any word is pushed (R402). -/
theorem State.interruptSequence_past {s : State} {n : Byte} {ret : Word} {de : Bool}
    (hv : s.plain (4 * n.toNat) 4) (h : s.sp = 1 ∨ s.sp = 3 ∨ s.sp = 5) :
    s.interruptSequence n ret de = .error .shutdown := by
  obtain ⟨k, hk, hs⟩ : ∃ k, k < 3 ∧ s.sp = BitVec.ofNat 16 (2 * k + 1) := by
    rcases h with h | h | h
    · exact ⟨0, by decide, h⟩
    · exact ⟨1, by decide, h⟩
    · exact ⟨2, by decide, h⟩
  exact (bind_of_ok (State.vector_ok hv)).trans
    (bind_of_error (State.checkFrame_past hk (State.pushed_word_past k hs)))

/-- Settles O47: a push that does not fit is the trap `Trap.shutdown`, whatever was read before it; the operand of
PUSH r/m and the target of CALL are read first. -/
theorem pushPastTopShutsDown : Obligations.PushPastTopShutsDown := by
  intro s p r sr rm m w imm rel sel off n ret de down
  refine ⟨fun h => ⟨?_, ?_, fun hrm => ?_⟩, fun h => ?_, fun h => ⟨?_, fun hrm => ?_⟩,
    fun h => ⟨?_, fun hm => ?_⟩, fun hv h => ?_⟩
  · exact exec_shutdown_of_retire (State.push_past h) rfl
  · exact exec_shutdown_of_retire (State.pushSeg_past h) rfl
  · exact exec_shutdown_of_retire ((bind_of_ok (State.readRM_ok hrm)).trans (State.push_past h)) rfl
  · exact exec_shutdown_of_retire (State.push_past h) rfl
  · exact exec_shutdown_of_retireJump (State.callNear_past h) rfl
  · exact exec_shutdown_of_retireJump ((bind_of_ok (State.readRM_ok hrm)).trans (State.callNear_past h)) rfl
  · exact exec_shutdown_of_retireJump (State.callFar_past h) rfl
  · exact exec_shutdown_of_retireJump ((bind_of_ok (State.readFar_ok hm)).trans (State.callFar_past h)) rfl
  · exact State.interrupt_shutdown (State.interruptSequence_past hv h)

/-! ## Pops -/

/-- A pop of a word past the top, `k` bytes having been popped from `s` before it. -/
theorem State.pop_word_past {s t : State} {k : Nat} (hsp : t.sp = s.sp + BitVec.ofNat 16 k)
    (h : 0x10000 < s.above k + 2) : t.pop .word = .error (.exc 13) :=
  State.pop_past (by rw [hsp]; exact h)

/-- With SP = 0FFFFH - k the word popped after `k` bytes starts at the last offset of the segment. -/
theorem State.popped_word_past {s : State} (k : Nat) (h : s.sp = BitVec.ofNat 16 0xFFFF - BitVec.ofNat 16 k) :
    0x10000 < s.above k + 2 := by
  rw [State.above, h, BitVec.sub_add_cancel]
  decide

/-- Two words popped, the second past the top: what every far return and IRET begin with. -/
theorem State.second_pop_past {s : State} {α : Type} {f : Word × State → Word × State → Except Trap α}
    (h0 : s.canPop 0 2) (h : 0x10000 < s.above 2 + 2) :
    (s.pop .word >>= fun x => x.2.pop .word >>= f x) = .error (.exc 13) :=
  (bind_of_ok (State.pop_word h0)).trans (bind_of_error (State.pop_word_past (State.sp_setSp _ _) h))

/-- IRET whose third word lies past the top. -/
theorem State.returnFromInterrupt_third_past {s : State} (h0 : s.canPop 0 2) (h2 : s.canPop 2 2)
    (h : 0x10000 < s.above 4 + 2) : s.returnFromInterrupt = .error (.exc 13) := by
  have second := State.pop_word_after (t := s.setSp (s.sp + BitVec.ofNat 16 2)) (State.sp_setSp _ _) rfl rfl rfl rfl h2
  exact (bind_of_ok (State.pop_word h0)).trans ((bind_of_ok second).trans
    (bind_of_error (State.pop_word_past (State.sp_setSp _ _) h)))

/-- Settles O48: the pop of the first word past the top raises, after the pops of those before it. -/
theorem popPastTopRaises : Obligations.PopPastTopRaises := by
  intro s p r sr rm n
  refine ⟨fun h => ?_, fun h => ?_, fun h h0 => ?_, fun h h0 h2 => ?_⟩
  · have hp : s.pop p.opSize = .error (.exc 13) := State.pop_past h
    exact ⟨.of_first hp rfl, .of_first hp rfl, fun hesp => .of_first hp (exec_popRm hesp)⟩
  · have hp : s.pop .word = .error (.exc 13) := State.pop_past (by rw [h]; decide)
    have hf : ∀ k, s.returnFar k = .error (.exc 13) := fun _ => bind_of_error hp
    have hn : ∀ k, s.returnNear k = .error (.exc 13) := fun _ => bind_of_error hp
    exact ⟨.of_retireJump (hn _) rfl, .of_retireJump (hn _) rfl, .of_retireJump (hf _) rfl,
      .of_retireJump (hf _) rfl, .of_retireJump (bind_of_error hp) rfl⟩
  · have hf : ∀ k, s.returnFar k = .error (.exc 13) := fun _ => State.second_pop_past h0 (State.popped_word_past 2 h)
    exact ⟨.of_retireJump (hf _) rfl, .of_retireJump (hf _) rfl,
      .of_retireJump (State.second_pop_past h0 (State.popped_word_past 2 h)) rfl⟩
  · exact .of_retireJump (State.returnFromInterrupt_third_past h0 h2 (State.popped_word_past 4 h)) rfl

end Sys2Proof.Machine
end

section
/-!
PROOFS. The bytes of an instruction are decoded to it (R120 to R159): each parser undoes the encoder of what it
reads, the opcode maps undo the opcode bytes, and a byte the maps decode is none of the prefixes.
-/

namespace Sys2Proof
open Machine

/-! ## Codes -/

@[simp] theorem Reg.ofCode_code (r : Reg) : Reg.ofCode r.code = r := by cases r <;> rfl

@[simp] theorem Base16.ofCode_code (b : Base16) : Base16.ofCode b.code = b := by cases b <;> rfl

@[simp] theorem Scale.ofCode_code (ss : Scale) : Scale.ofCode ss.code = ss := by cases ss <;> rfl

theorem Reg.code_eq_four {r : Reg} : r.code = 4 ↔ r = .esp := by cases r <;> decide

theorem Reg.code_eq_five {r : Reg} : r.code = 5 ↔ r = .ebp := by cases r <;> decide

theorem Base16.code_eq_six {b : Base16} : b.code = 6 ↔ b = .bp := by cases b <;> decide

/-- ESP is no index: its code stands for none (R133). -/
theorem sibIndex_sibIndexCode {idx : Option Reg} (h : idx ≠ some .esp) : sibIndex (sibIndexCode idx) = idx := by
  cases idx with
  | none => rfl
  | some r =>
    have hr : ¬ r.code = 4 := fun hc => h (congrArg some (Reg.code_eq_four.mp hc))
    simp only [sibIndex, sibIndexCode, if_neg hr, Reg.ofCode_code]

section
variable (hi : BitVec 2) (mid lo : BitVec 3)

@[simp] theorem fieldByte_hi : (fieldByte hi mid lo).extractLsb' 6 2 = hi := by
  revert hi mid lo
  decide

@[simp] theorem fieldByte_mid : (fieldByte hi mid lo).extractLsb' 3 3 = mid := by
  revert hi mid lo
  decide

@[simp] theorem fieldByte_lo : (fieldByte hi mid lo).extractLsb' 0 3 = lo := by
  revert hi mid lo
  decide

end

/-! ## Fields -/

@[simp] theorem andThen_ok {α β : Type} (a : α) (t : List Byte) (f : α → List Byte → Parsed β) :
    andThen (.ok (a, t)) f = f a t := rfl

@[simp] theorem takeWord_wordBytes (v : Word) (t : List Byte) : takeWord (wordBytes v ++ t) = .ok (v, t) :=
  congrArg (fun v => Except.ok (v, t)) (word_split v)

@[simp] theorem takeDword_dwordBytes (v : Dword) (t : List Byte) : takeDword (dwordBytes v ++ t) = .ok (v, t) :=
  congrArg (fun v => Except.ok (v, t)) (dword_split v)

@[simp] theorem takeImm_leBytes (w : Width) (v : BitVec w.bits) (t : List Byte) :
    takeImm w (leBytes w v ++ t) = .ok (v, t) := by
  cases w with
  | byte => rfl
  | word => exact takeWord_wordBytes v t
  | dword => exact takeDword_dwordBytes v t

theorem takeMoffs_bytes {p : Prefixes} {off : Moffs} (h : off.wf p = true) (t : List Byte) :
    takeMoffs p (off.bytes ++ t) = .ok (off, t) := by
  cases off with
  | o16 v =>
    have ha : p.addr32 = false := by simpa [Moffs.wf] using h
    simp [takeMoffs, Moffs.bytes, ha]
  | o32 v =>
    have ha : p.addr32 = true := h
    simp [takeMoffs, Moffs.bytes, ha]

@[simp] theorem takeDisp16_bytes (d : Disp16) (t : List Byte) : takeDisp16 d.mode (d.bytes ++ t) = .ok (d, t) := by
  cases d with
  | none => rfl
  | d8 v => rfl
  | d16 v => simp [takeDisp16, Disp16.mode, Disp16.bytes]

@[simp] theorem takeDisp32_bytes (d : Disp32) (t : List Byte) : takeDisp32 d.mode (d.bytes ++ t) = .ok (d, t) := by
  cases d with
  | none => rfl
  | d8 v => rfl
  | d32 v => simp [takeDisp32, Disp32.mode, Disp32.bytes]

theorem Disp16.mode_eq_zero {d : Disp16} : d.mode = 0 ↔ d = .none := by cases d <;> simp [Disp16.mode]

theorem Disp32.mode_eq_zero {d : Disp32} : d.mode = 0 ↔ d = .none := by cases d <;> simp [Disp32.mode]

/-- A displacement never makes a register operand (R130). -/
theorem Disp16.mode_ne_three (d : Disp16) : d.mode ≠ 3 := by cases d <;> simp [Disp16.mode]

theorem Disp32.mode_ne_three (d : Disp32) : d.mode ≠ 3 := by cases d <;> simp [Disp32.mode]

/-! ## ModR/M and SIB -/

/-- `[BP]` has a displacement, so that a form with a base is not read as one of a displacement alone (R131). -/
theorem takeMem16_base {b : Base16} {d : Disp16} (h : b ≠ .bp ∨ d ≠ .none) (t : List Byte) :
    takeMem16 d.mode b.code (d.bytes ++ t) = .ok (.base16 b d, t) := by
  have hmode : ¬ (d.mode = 0 ∧ b.code = 6) := fun ⟨hd, hb⟩ =>
    h.elim (· (Base16.code_eq_six.mp hb)) (· (Disp16.mode_eq_zero.mp hd))
  simp only [takeMem16, if_neg hmode, takeDisp16_bytes, andThen_ok, Base16.ofCode_code]

/-- `[EBP]` has a displacement (R132, R133). -/
theorem Disp32.not_abs {b : Reg} {d : Disp32} (h : b ≠ .ebp ∨ d ≠ .none) : ¬ (d.mode = 0 ∧ b.code = 5) :=
  fun ⟨hd, hb⟩ => h.elim (· (Reg.code_eq_five.mp hb)) (· (Disp32.mode_eq_zero.mp hd))

theorem takeMem32_base {b : Reg} {d : Disp32} (hesp : b ≠ .esp) (hebp : b ≠ .ebp ∨ d ≠ .none) (t : List Byte) :
    takeMem32 d.mode b.code (d.bytes ++ t) = .ok (.base32 b d, t) := by
  have hsib : ¬ b.code = 4 := fun hb => hesp (Reg.code_eq_four.mp hb)
  simp only [takeMem32, if_neg hsib, if_neg (Disp32.not_abs hebp), takeDisp32_bytes, andThen_ok, Reg.ofCode_code]

theorem takeSib_base {b : Reg} {idx : Option Reg} {d : Disp32} (ss : Scale) (hidx : idx ≠ some .esp)
    (hebp : b ≠ .ebp ∨ d ≠ .none) (t : List Byte) :
    takeSib d.mode (fieldByte ss.code (sibIndexCode idx) b.code :: (d.bytes ++ t)) = .ok (.sib b idx ss d, t) := by
  simp only [takeSib, fieldByte_hi, fieldByte_mid, fieldByte_lo, if_neg (Disp32.not_abs hebp), takeDisp32_bytes,
    andThen_ok, Scale.ofCode_code, Reg.ofCode_code, sibIndex_sibIndexCode hidx]

theorem takeSib_abs {idx : Option Reg} (ss : Scale) (hidx : idx ≠ some .esp) (v : Dword) (t : List Byte) :
    takeSib 0 (fieldByte ss.code (sibIndexCode idx) 5 :: (dwordBytes v ++ t)) = .ok (.sibAbs idx ss v, t) := by
  simp only [takeSib, fieldByte_hi, fieldByte_mid, fieldByte_lo, and_self, if_true, takeDword_dwordBytes,
    andThen_ok, Scale.ofCode_code, sibIndex_sibIndexCode hidx]

/-- A ModR/M byte that calls for memory is read with the addressing of AddressSize (R130 to R132). -/
theorem takeModRM_mem {p : Prefixes} {mode : BitVec 2} (reg : BitVec 3) {rm : BitVec 3} {t u : List Byte} {m : Mem}
    (hm : mode ≠ 3) (h : (if p.addr32 then takeMem32 mode rm t else takeMem16 mode rm t) = .ok (m, u)) :
    takeModRM p (fieldByte mode reg rm :: t) = .ok ((reg, .mem m), u) := by
  simp only [takeModRM, fieldByte_hi, fieldByte_mid, fieldByte_lo, if_neg hm]
  split
  · next ha => rw [(if_pos ha).symm.trans h, andThen_ok]
  · next ha => rw [(if_neg ha).symm.trans h, andThen_ok]

/-- A memory operand is read back from its bytes (R131 to R133). -/
theorem takeModRM_mem_bytes {p : Prefixes} {m : Mem} (h : m.wf p.addr32 = true) (reg : BitVec 3) (t : List Byte) :
    takeModRM p (m.bytes reg ++ t) = .ok ((reg, .mem m), t) := by
  cases m with
  | base16 b d =>
    obtain ⟨ha, hbp⟩ : p.addr32 = false ∧ (b ≠ .bp ∨ d ≠ .none) := by simpa [Mem.wf] using h
    exact takeModRM_mem reg d.mode_ne_three (by rw [ha]; exact takeMem16_base hbp t)
  | abs16 v =>
    have ha : p.addr32 = false := by simpa [Mem.wf] using h
    exact takeModRM_mem reg (by decide) (by simp [ha, takeMem16])
  | base32 b d =>
    obtain ⟨⟨ha, hesp⟩, hebp⟩ : (p.addr32 = true ∧ b ≠ .esp) ∧ (b ≠ .ebp ∨ d ≠ .none) := by simpa [Mem.wf] using h
    exact takeModRM_mem reg d.mode_ne_three (by rw [ha]; exact takeMem32_base hesp hebp t)
  | abs32 v =>
    have ha : p.addr32 = true := h
    exact takeModRM_mem reg (by decide) (by simp [ha, takeMem32])
  | sib b idx ss d =>
    obtain ⟨⟨ha, hidx⟩, hebp⟩ : (p.addr32 = true ∧ idx ≠ some .esp) ∧ (b ≠ .ebp ∨ d ≠ .none) := by
      simpa [Mem.wf] using h
    exact takeModRM_mem reg d.mode_ne_three (by rw [ha]; exact takeSib_base ss hidx hebp t)
  | sibAbs idx ss v =>
    obtain ⟨ha, hidx⟩ : p.addr32 = true ∧ idx ≠ some .esp := by simpa [Mem.wf] using h
    exact takeModRM_mem reg (by decide) (by rw [ha]; exact takeSib_abs ss hidx v t)

/-- An r/m operand is read back from its bytes, with the reg field beside it (R128, R130). -/
theorem takeModRM_bytes {p : Prefixes} {rm : RM} (h : rm.wf p = true) (reg : BitVec 3) (t : List Byte) :
    takeModRM p (rm.bytes reg ++ t) = .ok ((reg, rm), t) := by
  cases rm with
  | reg r => simp [takeModRM, RM.bytes]
  | mem m => exact takeModRM_mem_bytes h reg t

/-! ## Prefixes -/

/-- A byte that the opcode map decodes is none of the prefixes: there the reading of prefixes ends (R120, R151). -/
theorem takePrefixes_opcode {p : Prefixes} {b : Byte} {t : List Byte} {x : Instr × List Byte}
    (h : decodeOpcode p b t = .ok x) (q : Prefixes) : takePrefixes q (b :: t) = .ok (q, b :: t) := by
  have ne : ∀ c : Byte, decodeOpcode p c t = .error .undefinedOpcode → b ≠ c := by
    rintro c hc rfl
    cases hc.symm.trans h
  have hseg : SReg.ofPrefixByte? b = none := by
    unfold SReg.ofPrefixByte?
    split
    · exact absurd (BitVec.eq_of_toNat_eq ‹_›) (ne 0x2E rfl)
    · exact absurd (BitVec.eq_of_toNat_eq ‹_›) (ne 0x36 rfl)
    · exact absurd (BitVec.eq_of_toNat_eq ‹_›) (ne 0x3E rfl)
    · exact absurd (BitVec.eq_of_toNat_eq ‹_›) (ne 0x26 rfl)
    · exact absurd (BitVec.eq_of_toNat_eq ‹_›) (ne 0x64 rfl)
    · exact absurd (BitVec.eq_of_toNat_eq ‹_›) (ne 0x65 rfl)
    · rfl
  simp only [takePrefixes, ne 0x66 rfl, ne 0x67 rfl, ne 0xF0 rfl, ne 0xF2 rfl, ne 0xF3 rfl, or_self, if_false, hseg]

theorem takePrefixes_override {q : Prefixes} (hq : q.seg = none) (sr : SReg) (t : List Byte) :
    takePrefixes q (sr.prefixByte :: t) = takePrefixes { q with seg := some sr } t := by
  cases sr <;> simp [takePrefixes, SReg.prefixByte, SReg.ofPrefixByte?, hq]

/-- Prefixes are read back from their bytes, up to where reading prefixes ends (R120). -/
theorem takePrefixes_bytes (p : Prefixes) {t : List Byte} (h : takePrefixes p t = .ok (p, t)) :
    takePrefixes noPrefixes (p.bytes ++ t) = .ok (p, t) := by
  obtain ⟨op32, addr32, seg⟩ := p
  cases seg with
  | none => cases addr32 <;> cases op32 <;> exact h
  | some sr =>
    have hseg : takePrefixes ⟨op32, addr32, none⟩ (sr.prefixByte :: t) = .ok (⟨op32, addr32, some sr⟩, t) :=
      (takePrefixes_override rfl sr t).trans h
    cases addr32 <;> cases op32 <;> exact hseg

/-- What follows the prefixes `p`, decoded. -/
def decodeBody (p : Prefixes) : List Byte → Parsed Instr
  | [] => .error .needMore
  | b :: t => decodeOpcode p b t

/-- Bytes that the maps decode under the prefixes `p` are so decoded after the bytes of `p` (R120). -/
theorem decode_prefixes_append {p : Prefixes} {bs : List Byte} {x : Instr × List Byte}
    (h : decodeBody p bs = .ok x) : decode (p.bytes ++ bs) = .ok x := by
  cases bs with
  | nil => cases h
  | cons b t =>
    have hp := takePrefixes_bytes p (takePrefixes_opcode h p)
    rw [decode, hp]
    exact h

/-! ## Operand sizes -/

/-- A form of all three widths has the byte width or that of its prefixes (R124). -/
theorem Prefixes.admits_iff {p : Prefixes} {w : Width} : p.admits w = true ↔ w = .byte ∨ w = p.opSize := by
  simp [Prefixes.admits]

theorem Prefixes.opSize_ne_byte (p : Prefixes) : p.opSize ≠ .byte := by
  unfold Prefixes.opSize
  split <;> decide

@[simp] theorem opW_opSize (p : Prefixes) (b : Byte) : opW p.opSize b = b + 1 := if_neg p.opSize_ne_byte

/-- The two opcodes of a pair, decoded by one parser `d` of the width (R127). -/
theorem decodeBody_opW {p : Prefixes} {b : Byte} {w : Width} (d : Width → List Byte → Parsed Instr)
    (hw : p.admits w = true) (hb : ∀ t, decodeOpcode p b t = d .byte t)
    (ho : ∀ t, decodeOpcode p (b + 1) t = d p.opSize t) (bs t : List Byte) :
    decodeBody p (opW w b :: bs ++ t) = d w (bs ++ t) := by
  obtain rfl | rfl := Prefixes.admits_iff.mp hw
  · exact hb _
  · rw [opW_opSize]
    exact ho _

theorem Prefixes.op32_ne_true {p : Prefixes} (h : p.only16 = true) : ¬ p.op32 = true := by
  simpa [Prefixes.only16] using h

/-- A control transfer listed for OperandSize 16 only, without 66H (R159). -/
theorem only16_eq {p : Prefixes} (h : p.only16 = true) (x : Parsed Instr) : only16 p x = x :=
  if_neg (Prefixes.op32_ne_true h)

/-! ## Reading on after an operand -/

section
variable {α : Type} (t : List Byte)

theorem andThen_word (v : Word) (f : Word → List Byte → Parsed α) :
    andThen (takeWord (wordBytes v ++ t)) f = f v t := by
  rw [takeWord_wordBytes, andThen_ok]

theorem andThen_imm {w : Width} (v : BitVec w.bits) (f : BitVec w.bits → List Byte → Parsed α) :
    andThen (takeImm w (leBytes w v ++ t)) f = f v t := by
  rw [takeImm_leBytes, andThen_ok]

theorem andThen_moffs {p : Prefixes} {off : Moffs} (h : off.wf p = true) (f : Moffs → List Byte → Parsed α) :
    andThen (takeMoffs p (off.bytes ++ t)) f = f off t := by
  rw [takeMoffs_bytes h, andThen_ok]

theorem andThen_modRM {p : Prefixes} {rm : RM} (h : rm.wf p = true) (reg : BitVec 3)
    (f : BitVec 3 × RM → List Byte → Parsed α) : andThen (takeModRM p (rm.bytes reg ++ t)) f = f (reg, rm) t := by
  rw [takeModRM_bytes h, andThen_ok]

/-- An r/m operand with an immediate after it. -/
theorem andThen_modRM_append {p : Prefixes} {rm : RM} (h : rm.wf p = true) (reg : BitVec 3) (bs : List Byte)
    (f : BitVec 3 × RM → List Byte → Parsed α) :
    andThen (takeModRM p (rm.bytes reg ++ bs ++ t)) f = f (reg, rm) (bs ++ t) := by
  rw [List.append_assoc, andThen_modRM (bs ++ t) h]

end

/-- A form with `/r` is read back from its bytes (R13). -/
theorem decodeSlashR_bytes {p : Prefixes} {rm : RM} (h : rm.wf p = true) (mk : Reg → RM → Instr) (r : Reg)
    (t : List Byte) : decodeSlashR p mk (rm.bytes r.code ++ t) = .ok (mk r rm, t) := by
  simp only [decodeSlashR, takeModRM_bytes h, andThen_ok, Reg.ofCode_code]

/-- A pair of opcodes with `/r`. -/
theorem decodeBody_slashR_opW {p : Prefixes} {b : Byte} {w : Width} {rm : RM} (mk : Width → Reg → RM → Instr)
    (h : (p.admits w && rm.wf p) = true) (hb : ∀ t, decodeOpcode p b t = decodeSlashR p (mk .byte) t)
    (ho : ∀ t, decodeOpcode p (b + 1) t = decodeSlashR p (mk p.opSize) t) (r : Reg) (t : List Byte) :
    decodeBody p (opW w b :: rm.bytes r.code ++ t) = .ok (mk w r rm, t) := by
  obtain ⟨hw, hrm⟩ := Bool.and_eq_true_iff.mp h
  exact (decodeBody_opW (fun w => decodeSlashR p (mk w)) hw hb ho _ t).trans (decodeSlashR_bytes hrm _ r t)

/-! ## The two-operand forms -/

/-- The ALU block: the opcode byte holds the digit and the form (R151, R243). -/
theorem decodeOpcode_alu (p : Prefixes) {b : Byte} {digit : BitVec 3} {lo : Nat}
    (hb : b.toNat = 8 * digit.toNat + lo) (hlo : lo < 6) (t : List Byte) :
    decodeOpcode p b t = decodeAlu p digit.toNat lo t := by
  have hdiv : b.toNat / 8 = digit.toNat := by omega
  have hmod : b.toNat % 8 = lo := by omega
  have := digit.isLt
  unfold decodeOpcode
  simp only [hdiv, hmod]
  split
  iterate 24 omega
  exact if_pos hlo

/-- The opcodes of the ALU block with a digit (R243). -/
theorem aluOpcode_toNat (digit : BitVec 3) {lo : Byte} (h : lo.toNat < 8) :
    (digit.setWidth 8 * 8 + lo : Byte).toNat = 8 * digit.toNat + lo.toNat := by
  have h8 : (digit.setWidth 8 * 8 : Byte).toNat = 8 * digit.toNat := by
    revert digit
    decide
  have := digit.isLt
  rw [BitVec.toNat_add, h8]
  omega

/-- A pair of opcodes of the ALU block, decoded by one parser `d` of the width. -/
theorem decodeBody_alu_opW {p : Prefixes} {digit : BitVec 3} {w : Width} {b : Byte} (lo : Nat)
    (d : Width → List Byte → Parsed Instr) (hw : p.admits w = true) (hb : b.toNat = 8 * digit.toNat + lo)
    (hlo : lo < 5) (h0 : ∀ t, decodeAlu p digit.toNat lo t = d .byte t)
    (h1 : ∀ t, decodeAlu p digit.toNat (lo + 1) t = d p.opSize t) (bs t : List Byte) :
    decodeBody p (opW w b :: bs ++ t) = d w (bs ++ t) := by
  have := digit.isLt
  have hb' : (b + 1).toNat = 8 * digit.toNat + (lo + 1) := by
    have : (b + 1).toNat = (b.toNat + 1) % 256 := BitVec.toNat_add b 1
    omega
  exact decodeBody_opW d hw (fun t => (decodeOpcode_alu p hb (by omega) t).trans (h0 t))
    (fun t => (decodeOpcode_alu p hb' (by omega) t).trans (h1 t)) bs t

/-- A two-operand instruction is read back from its bytes (R243). -/
theorem decodeBody_alu {p : Prefixes} {f : AluForm} (digit : BitVec 3) (h : f.wf p = true) (t : List Byte) :
    decodeBody p (f.bytes digit ++ t) = .ok (aluInstr p digit.toNat f, t) := by
  cases f with
  | accImm w imm =>
    exact (decodeBody_alu_opW 4 (fun w t => andThen (takeImm w t) fun imm t =>
      .ok (aluInstr p digit.toNat (.accImm w imm), t)) h (aluOpcode_toNat digit (lo := 4) (by decide)) (by decide)
      (fun _ => rfl) (fun _ => rfl) _ t).trans (andThen_imm t imm _)
  | rmImm w rm imm =>
    obtain ⟨hw, hrm⟩ := Bool.and_eq_true_iff.mp h
    exact (decodeBody_opW (fun w t => andThen (takeModRM p t) fun x t => andThen (takeImm w t) fun imm t =>
      .ok (aluInstr p x.1.toNat (.rmImm w x.2 imm), t)) hw (fun _ => rfl) (fun _ => rfl) _ t).trans
      ((andThen_modRM_append t hrm digit _ _).trans (andThen_imm t imm _))
  | rmImm8 w rm imm =>
    obtain ⟨hw, hrm⟩ := Bool.and_eq_true_iff.mp h
    obtain rfl : w = p.opSize := of_decide_eq_true hw
    exact andThen_modRM_append t hrm digit [imm] _
  | rmReg w rm r =>
    obtain ⟨hw, hrm⟩ := Bool.and_eq_true_iff.mp h
    exact (decodeBody_alu_opW 0 (fun w => decodeSlashR p fun r rm => aluInstr p digit.toNat (.rmReg w rm r)) hw
      (by simpa using aluOpcode_toNat digit (lo := 0) (by decide)) (by decide) (fun _ => rfl) (fun _ => rfl) _ t).trans
      (decodeSlashR_bytes hrm _ r t)
  | regRm w r rm =>
    obtain ⟨hw, hrm⟩ := Bool.and_eq_true_iff.mp h
    exact (decodeBody_alu_opW 2 (fun w => decodeSlashR p fun r rm => aluInstr p digit.toNat (.regRm w r rm)) hw
      (aluOpcode_toNat digit (lo := 2) (by decide)) (by decide) (fun _ => rfl) (fun _ => rfl) _ t).trans
      (decodeSlashR_bytes hrm _ r t)

/-- TEST is read back from its bytes (R284). -/
theorem decodeBody_test {p : Prefixes} {f : TestForm} (h : f.wf p = true) (t : List Byte) :
    decodeBody p (f.bytes ++ t) = .ok (.test p f, t) := by
  cases f with
  | accImm w imm =>
    exact (decodeBody_opW (fun w t => andThen (takeImm w t) fun imm t => .ok (.test p (.accImm w imm), t)) h
      (fun _ => rfl) (fun _ => rfl) _ t).trans (andThen_imm t imm _)
  | rmImm w rm imm =>
    obtain ⟨hw, hrm⟩ := Bool.and_eq_true_iff.mp h
    exact (decodeBody_opW (decodeGroupUnary p) hw (fun _ => rfl) (fun _ => rfl) _ t).trans
      ((andThen_modRM_append t hrm 0 _ _).trans (andThen_imm t imm _))
  | rmReg w rm r =>
    exact decodeBody_slashR_opW (fun w r rm => .test p (.rmReg w rm r)) h (fun _ => rfl) (fun _ => rfl) r t

/-! ## Groups, moves and control transfers -/

/-- A shift or rotate is read back from its bytes (R300). -/
theorem decodeBody_shift {p : Prefixes} {w : Width} {rm : RM} (digit : BitVec 3) (n : Count)
    (h : (p.admits w && rm.wf p) = true) (t : List Byte) :
    decodeBody p (shiftBytes digit w rm n ++ t) = shiftInstr p digit.toNat w rm n t := by
  obtain ⟨hw, hrm⟩ := Bool.and_eq_true_iff.mp h
  cases n with
  | one =>
    exact (decodeBody_opW (fun w => decodeShift p w .one) hw (fun _ => rfl) (fun _ => rfl) _ t).trans
      (andThen_modRM t hrm digit _)
  | cl =>
    exact (decodeBody_opW (fun w => decodeShift p w .cl) hw (fun _ => rfl) (fun _ => rfl) _ t).trans
      (andThen_modRM t hrm digit _)
  | imm n =>
    exact (decodeBody_opW (decodeShiftImm p) hw (fun _ => rfl) (fun _ => rfl) _ t).trans
      (andThen_modRM_append t hrm digit [n] _)

/-- MOV reg,imm is read back from its bytes (R206). -/
theorem decodeBody_movRImm {p : Prefixes} {w : Width} (h : p.admits w = true) (r : Reg) (imm : BitVec w.bits)
    (t : List Byte) : decodeBody p ((Instr.movRImm p w r imm).body ++ t) = .ok (.movRImm p w r imm, t) := by
  obtain rfl | rfl := Prefixes.admits_iff.mp h
  · cases r <;> rfl
  · rw [Instr.body, if_neg p.opSize_ne_byte]
    cases r <;> exact andThen_imm t imm _

/-- A conditional jump by its condition code, with a rel8 (R151, R320). -/
theorem decodeOpcode_jcc (p : Prefixes) {cc : Byte} (hcc : cc.toNat < 16) (t : List Byte) :
    decodeOpcode p (0x70 + cc) t = andThen (takeRel8 t) fun rel t => .ok (jccInstr p cc.toNat rel, t) := by
  have hb : (0x70 + cc).toNat = (0x70 + cc.toNat) % 256 := BitVec.toNat_add 0x70 cc
  obtain hlt | hge := Nat.lt_or_ge cc.toNat 8
  · have hhi : (0x70 + cc).toNat / 8 = 14 := by omega
    have hlo : (0x70 + cc).toNat % 8 = cc.toNat := by omega
    simp only [decodeOpcode, hhi, hlo]
  · have hhi : (0x70 + cc).toNat / 8 = 15 := by omega
    have hlo : 8 + (0x70 + cc).toNat % 8 = cc.toNat := by omega
    simp only [decodeOpcode, hhi, hlo]

/-- A conditional jump by its condition code, with a rel16 or rel32 (R152, R320). -/
theorem decodeTwoByte_jcc (p : Prefixes) {cc : Byte} (hcc : cc.toNat < 16) (t : List Byte) :
    decodeTwoByte p ((0x80 + cc) :: t) = andThen (takeRel p t) fun rel t => .ok (jccInstr p cc.toNat rel, t) := by
  have hb : (0x80 + cc).toNat = (0x80 + cc.toNat) % 256 := BitVec.toNat_add 0x80 cc
  obtain hlt | hge := Nat.lt_or_ge cc.toNat 8
  · have hhi : (0x80 + cc).toNat / 8 = 16 := by omega
    have hlo : (0x80 + cc).toNat % 8 = cc.toNat := by omega
    simp only [decodeTwoByte, hhi, hlo]
  · have hhi : (0x80 + cc).toNat / 8 = 17 := by omega
    have hlo : 8 + (0x80 + cc).toNat % 8 = cc.toNat := by omega
    simp only [decodeTwoByte, hhi, hlo]

theorem andThen_rel16 {α : Type} {p : Prefixes} {v : Word} (h : (Rel.rel16 v).wf p = true) (t : List Byte)
    (f : Rel → List Byte → Parsed α) : andThen (takeRel p (wordBytes v ++ t)) f = f (.rel16 v) t := by
  have hop : p.op32 = false := by simpa [Rel.wf] using h
  simp [takeRel, hop]

theorem andThen_rel32 {α : Type} {p : Prefixes} {v : Dword} (h : (Rel.rel32 v).wf p = true) (t : List Byte)
    (f : Rel → List Byte → Parsed α) : andThen (takeRel p (dwordBytes v ++ t)) f = f (.rel32 v) t := by
  have hop : p.op32 = true := h
  simp [takeRel, hop]

/-- A conditional jump is read back from its bytes (R320). -/
theorem decodeBody_jcc {p : Prefixes} {rel : Rel} (cc : Byte) (hcc : cc.toNat < 16) (h : rel.wf p = true)
    (t : List Byte) : decodeBody p (jccBytes cc rel ++ t) = .ok (jccInstr p cc.toNat rel, t) := by
  cases rel with
  | rel8 v => exact decodeOpcode_jcc p hcc (v :: t)
  | rel16 v => exact (decodeTwoByte_jcc p hcc _).trans (andThen_rel16 h t _)
  | rel32 v => exact (decodeTwoByte_jcc p hcc _).trans (andThen_rel32 h t _)

/-- A relative JMP is read back from its bytes (R324, R325). -/
theorem decodeBody_jmp {p : Prefixes} {rel : Rel} (h : rel.wf p = true) (t : List Byte) :
    decodeBody p (jmpBytes rel ++ t) = .ok (.jmpRel p rel, t) := by
  cases rel with
  | rel8 v => rfl
  | rel16 v => exact andThen_rel16 h t _
  | rel32 v => exact andThen_rel32 h t _

/-! ## Every instruction -/

/-- What follows the prefixes of an instruction is decoded to it, under its primary mnemonic (R151 to R154). -/
theorem decodeBody_body {i : Instr} (h : i.WellFormed) (t : List Byte) :
    decodeBody i.prefixes (i.body ++ t) = .ok (i.core, t) := by
  cases i with
  | add p f => exact decodeBody_alu 0 h t
  | or p f => exact decodeBody_alu 1 h t
  | adc p f => exact decodeBody_alu 2 h t
  | sbb p f => exact decodeBody_alu 3 h t
  | and p f => exact decodeBody_alu 4 h t
  | sub p f => exact decodeBody_alu 5 h t
  | xor p f => exact decodeBody_alu 6 h t
  | cmp p f => exact decodeBody_alu 7 h t
  | test p f => exact decodeBody_test h t
  | not p w rm | neg p w rm | mul p w rm | imulAcc p w rm | div p w rm | idiv p w rm =>
    obtain ⟨hw, hrm⟩ := Bool.and_eq_true_iff.mp h
    exact (decodeBody_opW (decodeGroupUnary p) hw (fun _ => rfl) (fun _ => rfl) _ t).trans (andThen_modRM t hrm _ _)
  | incRm p w rm | decRm p w rm =>
    obtain ⟨hw, hrm⟩ := Bool.and_eq_true_iff.mp h
    obtain rfl | rfl := Prefixes.admits_iff.mp hw
    · exact andThen_modRM t hrm _ _
    · rw [Instr.body, opW_opSize]
      exact andThen_modRM t hrm _ _
  | rol p w rm n | ror p w rm n | rcl p w rm n | rcr p w rm n | sal p w rm n | shl p w rm n | shr p w rm n
  | sar p w rm n => exact decodeBody_shift _ n h t
  | imulRRm p r rm => exact decodeSlashR_bytes h (fun r rm => .imulRRm p r rm) r t
  | btRmR p rm r => exact decodeSlashR_bytes h (fun r rm => .btRmR p rm r) r t
  | movsx8 p r rm => exact decodeSlashR_bytes h (fun r rm => .movsx8 p r rm) r t
  | movzx8 p r rm => exact decodeSlashR_bytes h (fun r rm => .movzx8 p r rm) r t
  | lea p r rm => exact decodeSlashR_bytes h (fun r rm => .lea p r rm) r t
  | movsx16 p r rm =>
    obtain ⟨hop, hrm⟩ := Bool.and_eq_true_iff.mp h
    exact (if_pos hop).trans (decodeSlashR_bytes hrm (fun r rm => .movsx16 p r rm) r t)
  | movzx16 p r rm =>
    obtain ⟨hop, hrm⟩ := Bool.and_eq_true_iff.mp h
    exact (if_pos hop).trans (decodeSlashR_bytes hrm (fun r rm => .movzx16 p r rm) r t)
  | imulRRmImm8 p r rm imm =>
    exact (andThen_modRM_append t h r.code [imm] _).trans
      (congrArg (fun r => Except.ok (Instr.imulRRmImm8 p r rm imm, t)) r.ofCode_code)
  | imulRRmImm p w r rm imm =>
    obtain ⟨hw, hrm⟩ := Bool.and_eq_true_iff.mp h
    obtain rfl : w = p.opSize := of_decide_eq_true hw
    exact (andThen_modRM_append t hrm r.code _ _).trans ((andThen_imm t imm _).trans
      (congrArg (fun r => Except.ok (Instr.imulRRmImm p p.opSize r rm imm, t)) r.ofCode_code))
  | btRmImm p rm imm => exact andThen_modRM_append t h 4 [imm] _
  | incR p r | decR p r | pushR p r | popR p r => cases r <;> rfl
  | xchgAcc p r =>
    cases r with
    | eax => cases h
    | ecx | edx | ebx | esp | ebp | esi | edi => rfl
  | movRmR p w rm r => exact decodeBody_slashR_opW (fun w r rm => .movRmR p w rm r) h (fun _ => rfl) (fun _ => rfl) r t
  | movRRm p w r rm => exact decodeBody_slashR_opW (fun w r rm => .movRRm p w r rm) h (fun _ => rfl) (fun _ => rfl) r t
  | xchgRmR p w rm r =>
    exact decodeBody_slashR_opW (fun w r rm => .xchgRmR p w rm r) h (fun _ => rfl) (fun _ => rfl) r t
  | movRmSreg p rm sr =>
    obtain ⟨hop, hrm⟩ := Bool.and_eq_true_iff.mp h
    refine (andThen_modRM t hrm _ _).trans ((if_neg (Prefixes.op32_ne_true hop)).trans ?_)
    cases sr <;> rfl
  | movSregRm p sr rm =>
    obtain ⟨hsr, hrm⟩ := Bool.and_eq_true_iff.mp h
    obtain ⟨hop, hcs⟩ := Bool.and_eq_true_iff.mp hsr
    refine (andThen_modRM t hrm _ _).trans ((if_neg (Prefixes.op32_ne_true hop)).trans ?_)
    cases sr with
    | cs => cases hcs
    | es | ss | ds | fs | gs => rfl
  | movAccMoffs p w off =>
    obtain ⟨hw, hoff⟩ := Bool.and_eq_true_iff.mp h
    exact (decodeBody_opW (fun w t => andThen (takeMoffs p t) fun off t => .ok (.movAccMoffs p w off, t)) hw
      (fun _ => rfl) (fun _ => rfl) _ t).trans (andThen_moffs t hoff _)
  | movMoffsAcc p w off =>
    obtain ⟨hw, hoff⟩ := Bool.and_eq_true_iff.mp h
    exact (decodeBody_opW (fun w t => andThen (takeMoffs p t) fun off t => .ok (.movMoffsAcc p w off, t)) hw
      (fun _ => rfl) (fun _ => rfl) _ t).trans (andThen_moffs t hoff _)
  | movRImm p w r imm => exact decodeBody_movRImm h r imm t
  | movRmImm p w rm imm =>
    obtain ⟨hw, hrm⟩ := Bool.and_eq_true_iff.mp h
    exact (decodeBody_opW (decodeMovImm p) hw (fun _ => rfl) (fun _ => rfl) _ t).trans
      ((andThen_modRM_append t hrm 0 _ _).trans (andThen_imm t imm _))
  | pushImm p w imm =>
    obtain rfl : w = p.opSize := of_decide_eq_true h
    exact andThen_imm t imm _
  | pushSreg p sr => cases sr <;> rfl
  | popSreg p sr =>
    cases sr with
    | cs => cases h
    | es | ss | ds | fs | gs => rfl
  | pushRm p rm | popRm p rm => exact andThen_modRM t h _ _
  | cwd p => exact congrArg (fun i => Except.ok (i, t)) (if_neg (Prefixes.op32_ne_true h))
  | cdq p => exact congrArg (fun i => Except.ok (i, t)) (if_pos (c := p.op32 = true) h)
  | jo p rel => exact decodeBody_jcc 0 (by decide) h t
  | jno p rel => exact decodeBody_jcc 1 (by decide) h t
  | jb p rel | jc p rel | jnae p rel => exact decodeBody_jcc 2 (by decide) h t
  | jae p rel | jnb p rel | jnc p rel => exact decodeBody_jcc 3 (by decide) h t
  | je p rel | jz p rel => exact decodeBody_jcc 4 (by decide) h t
  | jne p rel | jnz p rel => exact decodeBody_jcc 5 (by decide) h t
  | jbe p rel | jna p rel => exact decodeBody_jcc 6 (by decide) h t
  | ja p rel | jnbe p rel => exact decodeBody_jcc 7 (by decide) h t
  | js p rel => exact decodeBody_jcc 8 (by decide) h t
  | jns p rel => exact decodeBody_jcc 9 (by decide) h t
  | jp p rel | jpe p rel => exact decodeBody_jcc 10 (by decide) h t
  | jnp p rel | jpo p rel => exact decodeBody_jcc 11 (by decide) h t
  | jl p rel | jnge p rel => exact decodeBody_jcc 12 (by decide) h t
  | jge p rel | jnl p rel => exact decodeBody_jcc 13 (by decide) h t
  | jle p rel | jng p rel => exact decodeBody_jcc 14 (by decide) h t
  | jg p rel | jnle p rel => exact decodeBody_jcc 15 (by decide) h t
  | jmpRel p rel => exact decodeBody_jmp h t
  | jmpRm p rm | callRm p rm =>
    obtain ⟨hop, hrm⟩ := Bool.and_eq_true_iff.mp h
    exact (andThen_modRM t hrm _ _).trans (only16_eq hop _)
  | jmpMem p m | callMem p m =>
    obtain ⟨hop, hm⟩ := Bool.and_eq_true_iff.mp h
    exact (andThen_modRM (rm := .mem m) t hm _ _).trans (only16_eq hop _)
  | jmpPtr p sel off | callPtr p sel off =>
    exact (only16_eq h _).trans ((andThen_word (wordBytes sel ++ t) off _).trans (andThen_word t sel _))
  | callRel p v | retFarImm p v | retNearImm p v => exact (only16_eq h _).trans (andThen_word t v _)
  | retFar p | retNear p | iret p => exact only16_eq h _
  | stc p | clc p | cmc p | cli p | sti p | nop p => rfl
  | inImm p w v | inDx p w | outImm p w v | outDx p w =>
    obtain rfl | rfl := Prefixes.admits_iff.mp h
    · rfl
    · rw [Instr.body, opW_opSize]
      rfl

/-! ## The vectors -/

/-- Settles O3: the decoder is run on each word. -/
theorem decodesEncodingVectors : Obligations.DecodesEncodingVectors :=
  ⟨rfl, rfl, rfl, rfl, rfl, rfl, rfl, rfl, rfl⟩

/-- Settles O4: the decoder is run on each word. -/
theorem refusesOutsideSubset : Obligations.RefusesOutsideSubset :=
  ⟨rfl, rfl, rfl, rfl, rfl, rfl, rfl, rfl, rfl, rfl, rfl, rfl, rfl, rfl, rfl, rfl, rfl, rfl⟩

/-! ## The round trip -/

/-- Settles O1: the prefixes are read back from their bytes, and what follows them is decoded to the instruction. -/
theorem decodeEncodeRoundTrip : Obligations.DecodeEncodeRoundTrip := by
  intro i rest h
  rw [encode, List.append_assoc]
  exact decode_prefixes_append (decodeBody_body h rest)

end Sys2Proof
end

section
/-!
PROOFS. What the decoder answers is an instruction of the subset under a primary mnemonic, of 1 to 14 bytes (R120,
R147, R154).
-/

namespace Sys2Proof
open Machine

/-! ## Operands read are operands of the subset -/

theorem takeMoffs_wf (p : Prefixes) (t : List Byte) : Answers (fun off _ => off.wf p = true) (takeMoffs p t) := by
  unfold takeMoffs
  split
  · next ha => exact (takeDword_reads t).andThen fun _ _ _ => .ok ha
  · next ha => exact (takeWord_reads t).andThen fun _ _ _ => .ok (by simp [Moffs.wf, ha])

theorem takeRel_wf (p : Prefixes) (t : List Byte) : Answers (fun rel _ => rel.wf p = true) (takeRel p t) := by
  unfold takeRel
  split
  · next ho => exact (takeDword_reads t).andThen fun _ _ _ => .ok ho
  · next ho => exact (takeWord_reads t).andThen fun _ _ _ => .ok (by simp [Rel.wf, ho])

theorem takeRel8_wf (p : Prefixes) (t : List Byte) : Answers (fun rel _ => rel.wf p = true) (takeRel8 t) :=
  (takeByte_reads t).andThen fun _ _ _ => .ok rfl

theorem Reg.code_ofCode (c : BitVec 3) : (Reg.ofCode c).code = c := by
  revert c
  decide

theorem Base16.code_ofCode (c : BitVec 3) : (Base16.ofCode c).code = c := by
  revert c
  decide

/-- ESP is never read as an index (R133). -/
theorem sibIndex_ne_esp (c : BitVec 3) : sibIndex c ≠ some .esp := by
  revert c
  decide

/-- No displacement is read with mod = 00 only (R131). -/
theorem takeDisp16_none (mode : BitVec 2) (t : List Byte) :
    Answers (fun d _ => d = .none → mode = 0) (takeDisp16 mode t) := by
  unfold takeDisp16
  split
  · next hm => exact .ok fun _ => BitVec.eq_of_toNat_eq hm
  · exact (takeByte_reads t).andThen fun _ _ _ => .ok nofun
  · exact (takeWord_reads t).andThen fun _ _ _ => .ok nofun

/-- No displacement is read with mod = 00 only (R132, R133). -/
theorem takeDisp32_none (mode : BitVec 2) (t : List Byte) :
    Answers (fun d _ => d = .none → mode = 0) (takeDisp32 mode t) := by
  unfold takeDisp32
  split
  · next hm => exact .ok fun _ => BitVec.eq_of_toNat_eq hm
  · exact (takeByte_reads t).andThen fun _ _ _ => .ok nofun
  · exact (takeDword_reads t).andThen fun _ _ _ => .ok nofun

theorem takeMem16_wf (mode : BitVec 2) (rm : BitVec 3) (t : List Byte) :
    Answers (fun m _ => m.wf false = true) (takeMem16 mode rm t) := by
  unfold takeMem16
  split
  · exact (takeWord_reads t).andThen fun _ _ _ => .ok rfl
  · next habs =>
    refine (takeDisp16_none mode t).andThen fun d _ hd => .ok ?_
    have hbp : Base16.ofCode rm ≠ .bp ∨ d ≠ .none := not_and_or.mp fun ⟨hb, hn⟩ =>
      habs ⟨hd hn, (Base16.code_ofCode rm).symm.trans (congrArg Base16.code hb)⟩
    simpa [Mem.wf] using hbp

/-- `[EBP]` is never read with no displacement (R132, R133). -/
theorem ne_ebp_or_ne_none {mode : BitVec 2} {c : BitVec 3} {d : Disp32} (habs : ¬ (mode = 0 ∧ c = 5))
    (hd : d = .none → mode = 0) : Reg.ofCode c ≠ .ebp ∨ d ≠ .none :=
  not_and_or.mp fun ⟨hb, hn⟩ => habs ⟨hd hn, (Reg.code_ofCode c).symm.trans (congrArg Reg.code hb)⟩

theorem takeSib_wf (mode : BitVec 2) (t : List Byte) :
    Answers (fun m _ => m.wf true = true) (takeSib mode t) := by
  unfold takeSib
  split
  · exact .error _
  · next sib t =>
    have hidx := sibIndex_ne_esp (sib.extractLsb' 3 3)
    dsimp only
    split
    · exact (takeDword_reads t).andThen fun _ _ _ => .ok (by simp [Mem.wf, hidx])
    · next habs =>
      refine (takeDisp32_none mode t).andThen fun d _ hd => .ok ?_
      simpa [Mem.wf, hidx] using ne_ebp_or_ne_none habs hd

theorem takeMem32_wf (mode : BitVec 2) (rm : BitVec 3) (t : List Byte) :
    Answers (fun m _ => m.wf true = true) (takeMem32 mode rm t) := by
  unfold takeMem32
  split
  · exact takeSib_wf mode t
  · next hsib =>
    have hesp : Reg.ofCode rm ≠ .esp := fun hb =>
      hsib ((Reg.code_ofCode rm).symm.trans (congrArg Reg.code hb))
    split
    · exact (takeDword_reads t).andThen fun _ _ _ => .ok rfl
    · next habs =>
      refine (takeDisp32_none mode t).andThen fun d _ hd => .ok ?_
      simpa [Mem.wf, hesp] using ne_ebp_or_ne_none habs hd

/-- The r/m operand of a ModR/M byte is one of the address size (R130 to R133). -/
theorem takeModRM_wf (p : Prefixes) (t : List Byte) : Answers (fun x _ => x.2.wf p = true) (takeModRM p t) := by
  unfold takeModRM
  split
  · exact .error _
  · next b t =>
    dsimp only
    split
    · exact .ok rfl
    · split
      · next ha => exact (takeMem32_wf _ _ t).andThen fun _ _ h => .ok (by rw [RM.wf, ha]; exact h)
      · next ha =>
        have ha : p.addr32 = false := Bool.eq_false_of_not_eq_true ha
        exact (takeMem16_wf _ _ t).andThen fun _ _ h => .ok (by rw [RM.wf, ha]; exact h)

/-! ## The opcode maps -/

/-- The decoder answers instructions of the subset alone, each under its primary mnemonic. -/
def AnswersInstr (x : Parsed Instr) : Prop := Answers (fun i _ => i.WellFormed ∧ i.core = i) x

theorem AnswersInstr.ok {i : Instr} {t : List Byte} (hw : i.WellFormed) (hc : i.core = i) :
    AnswersInstr (.ok (i, t)) := Answers.ok ⟨hw, hc⟩

theorem AnswersInstr.error (e : DecodeError) : AnswersInstr (.error e) := Answers.error e

/-- A field that no well-formedness is asked of, and what is decoded after it. -/
theorem AnswersInstr.field {α : Type} {x : Parsed α} {f : α → List Byte → Parsed Instr}
    (hf : ∀ a t, AnswersInstr (f a t)) : AnswersInstr (andThen x f) :=
  Answers.andThen (P := fun _ _ => True) (fun _ _ _ => trivial) fun a t _ => hf a t

/-- A ModR/M byte with its operand, and what is decoded after it. -/
theorem AnswersInstr.modRM {p : Prefixes} {t : List Byte} {f : BitVec 3 × RM → List Byte → Parsed Instr}
    (hf : ∀ reg rm u, rm.wf p = true → AnswersInstr (f (reg, rm) u)) :
    AnswersInstr (andThen (takeModRM p t) f) :=
  (takeModRM_wf p t).andThen fun x u h => hf x.1 x.2 u h

/-- A form listed for OperandSize 16 only (R159). -/
theorem AnswersInstr.only16 {p : Prefixes} {x : Parsed Instr} (hx : p.only16 = true → AnswersInstr x) :
    AnswersInstr (only16 p x) := by
  unfold Sys2Proof.only16
  split
  · exact .error _
  · next ho => exact hx (by simp [Prefixes.only16, ho])

@[simp] theorem Prefixes.admits_byte (p : Prefixes) : p.admits .byte = true := by simp [Prefixes.admits]

@[simp] theorem Prefixes.admits_opSize (p : Prefixes) : p.admits p.opSize = true := by simp [Prefixes.admits]

@[simp] theorem Prefixes.admitsWide_opSize (p : Prefixes) : p.admitsWide p.opSize = true := by
  simp [Prefixes.admitsWide]

theorem AnswersInstr.alu {p : Prefixes} {digit : Nat} {f : AluForm} {t : List Byte} (h : f.wf p = true) :
    AnswersInstr (.ok (aluInstr p digit f, t)) := by
  unfold aluInstr
  split <;> exact .ok h rfl

theorem decodeAlu_wf (p : Prefixes) (digit lo : Nat) (t : List Byte) : AnswersInstr (decodeAlu p digit lo t) := by
  unfold decodeAlu
  split
  iterate 4 exact .modRM fun _ _ _ h => .alu (by simp [AluForm.wf, h])
  iterate 2 exact .field fun _ _ => .alu (by simp [AluForm.wf])

theorem decodeGroupImm_wf (p : Prefixes) (lo : Nat) (t : List Byte) : AnswersInstr (decodeGroupImm p lo t) := by
  unfold decodeGroupImm
  split
  iterate 3 exact .modRM fun _ _ _ h => .field fun _ _ => .alu (by simp [AluForm.wf, h])

theorem shiftInstr_wf {p : Prefixes} {w : Width} {rm : RM} (h : (p.admits w && rm.wf p) = true) (digit : Nat)
    (n : Count) (t : List Byte) : AnswersInstr (shiftInstr p digit w rm n t) := by
  unfold shiftInstr
  split
  iterate 7 exact .ok h rfl
  exact .error _

theorem decodeShift_wf {p : Prefixes} {w : Width} (hw : p.admits w = true) (n : Count) (t : List Byte) :
    AnswersInstr (decodeShift p w n t) :=
  .modRM fun _ _ _ h => shiftInstr_wf (Bool.and_intro hw h) _ _ _

theorem decodeShiftImm_wf {p : Prefixes} {w : Width} (hw : p.admits w = true) (t : List Byte) :
    AnswersInstr (decodeShiftImm p w t) :=
  .modRM fun _ _ _ h => .field fun _ _ => shiftInstr_wf (Bool.and_intro hw h) _ _ _

theorem decodeGroupUnary_wf {p : Prefixes} {w : Width} (hw : p.admits w = true) (t : List Byte) :
    AnswersInstr (decodeGroupUnary p w t) := by
  refine .modRM fun reg rm u h => ?_
  dsimp only
  split
  · exact .field fun _ _ => .ok (Bool.and_intro hw h) rfl
  iterate 6 exact .ok (Bool.and_intro hw h) rfl
  exact .error _

theorem decodeGroupFE_wf (p : Prefixes) (t : List Byte) : AnswersInstr (decodeGroupFE p t) := by
  refine .modRM fun reg rm u h => ?_
  dsimp only
  split
  iterate 2 exact .ok (Bool.and_intro p.admits_byte h) rfl
  exact .error _

/-- A far indirect transfer has its operand in memory (R158). -/
theorem farMem_wf {p : Prefixes} {mk : Mem → Instr} {rm : RM} (h : rm.wf p = true)
    (hw : ∀ m, m.wf p.addr32 = true → (mk m).WellFormed) (hc : ∀ m, (mk m).core = mk m) {t : List Byte} :
    AnswersInstr (farMem mk rm t) := by
  cases rm with
  | reg r => exact .error _
  | mem m => exact .ok (hw m h) (hc m)

theorem decodeGroupFF_wf (p : Prefixes) (t : List Byte) : AnswersInstr (decodeGroupFF p t) := by
  refine .modRM fun reg rm u h => ?_
  dsimp only
  split
  iterate 2 exact .ok (Bool.and_intro p.admits_opSize h) rfl
  · exact .only16 fun ho => .ok (Bool.and_intro ho h) rfl
  · exact .only16 fun ho => farMem_wf (mk := .callMem p) h (fun _ hm => Bool.and_intro ho hm) (fun _ => rfl)
  · exact .only16 fun ho => .ok (Bool.and_intro ho h) rfl
  · exact .only16 fun ho => farMem_wf (mk := .jmpMem p) h (fun _ hm => Bool.and_intro ho hm) (fun _ => rfl)
  · exact .ok h rfl
  · exact .error _

theorem decodeMovImm_wf {p : Prefixes} {w : Width} (hw : p.admits w = true) (t : List Byte) :
    AnswersInstr (decodeMovImm p w t) := by
  refine .modRM fun reg rm u h => ?_
  dsimp only
  split
  · exact .field fun _ _ => .ok (Bool.and_intro hw h) rfl
  · exact .error _

theorem decodeMovRmSreg_wf (p : Prefixes) (t : List Byte) : AnswersInstr (decodeMovRmSreg p t) := by
  refine .modRM fun reg rm u h => ?_
  dsimp only
  split
  · exact .error _
  · next ho =>
    split
    · exact .ok (Bool.and_intro (by simp [Prefixes.only16, ho]) h) rfl
    · exact .error _

theorem decodeMovSregRm_wf (p : Prefixes) (t : List Byte) : AnswersInstr (decodeMovSregRm p t) := by
  refine .modRM fun reg rm u h => ?_
  dsimp only
  split
  · exact .error _
  · next ho =>
    split
    · exact .error _
    · next sr hsr _ =>
      exact .ok (Bool.and_intro (Bool.and_intro (by simp [Prefixes.only16, ho]) (by simpa using hsr)) h) rfl
    · exact .error _

theorem decodePopRm_wf (p : Prefixes) (t : List Byte) : AnswersInstr (decodePopRm p t) := by
  refine .modRM fun reg rm u h => ?_
  dsimp only
  split
  · exact .ok h rfl
  · exact .error _

theorem decodeBtImm_wf (p : Prefixes) (t : List Byte) : AnswersInstr (decodeBtImm p t) := by
  refine .modRM fun reg rm u h => ?_
  dsimp only
  split
  · exact .field fun _ _ => .ok h rfl
  · exact .error _

/-- A conditional jump is decoded under its primary mnemonic (R154, R320). -/
theorem AnswersInstr.jcc {p : Prefixes} {cc : Nat} {rel : Rel} {t : List Byte} (h : rel.wf p = true) :
    AnswersInstr (.ok (jccInstr p cc rel, t)) := by
  unfold jccInstr
  split <;> exact .ok h rfl

theorem decode68_wf (p : Prefixes) (lo : Nat) (t : List Byte) : AnswersInstr (decode68 p lo t) := by
  unfold decode68
  split
  · exact .field fun _ _ => .ok p.admitsWide_opSize rfl
  · exact .modRM fun _ _ _ h => .field fun _ _ => .ok (Bool.and_intro p.admitsWide_opSize h) rfl
  · exact .modRM fun _ _ _ h => .field fun _ _ => .ok h rfl
  · exact .error _

theorem decode80_wf (p : Prefixes) (lo : Nat) (t : List Byte) : AnswersInstr (decode80 p lo t) := by
  unfold decode80
  split
  iterate 3 exact decodeGroupImm_wf p _ t
  · exact .modRM fun _ _ _ h => .ok (Bool.and_intro p.admits_byte h) rfl
  · exact .modRM fun _ _ _ h => .ok (Bool.and_intro p.admits_opSize h) rfl
  · exact .modRM fun _ _ _ h => .ok (Bool.and_intro p.admits_byte h) rfl
  · exact .modRM fun _ _ _ h => .ok (Bool.and_intro p.admits_opSize h) rfl
  · exact .error _

theorem decode88_wf (p : Prefixes) (lo : Nat) (t : List Byte) : AnswersInstr (decode88 p lo t) := by
  unfold decode88
  split
  · exact .modRM fun _ _ _ h => .ok (Bool.and_intro p.admits_byte h) rfl
  · exact .modRM fun _ _ _ h => .ok (Bool.and_intro p.admits_opSize h) rfl
  · exact .modRM fun _ _ _ h => .ok (Bool.and_intro p.admits_byte h) rfl
  · exact .modRM fun _ _ _ h => .ok (Bool.and_intro p.admits_opSize h) rfl
  · exact decodeMovRmSreg_wf p t
  · exact .modRM fun _ _ _ h => .ok h rfl
  · exact decodeMovSregRm_wf p t
  · exact decodePopRm_wf p t

theorem decode90_wf (p : Prefixes) (r : Reg) (t : List Byte) : AnswersInstr (decode90 p r t) := by
  unfold decode90
  split
  · exact .ok rfl rfl
  · next hr => exact .ok (by simpa [Instr.WellFormed, Instr.wf] using hr) rfl

theorem decode98_wf (p : Prefixes) (lo : Nat) (t : List Byte) : AnswersInstr (decode98 p lo t) := by
  unfold decode98
  split
  · split
    · next ho => exact .ok ho rfl
    · next ho => exact .ok (by simp [Instr.WellFormed, Instr.wf, Prefixes.only16, ho]) rfl
  · exact .only16 fun ho => .field fun _ _ => .field fun _ _ => .ok ho rfl
  · exact .error _

theorem decodeA0_wf (p : Prefixes) (lo : Nat) (t : List Byte) : AnswersInstr (decodeA0 p lo t) := by
  unfold decodeA0
  split
  · exact (takeMoffs_wf p t).andThen fun _ _ h => AnswersInstr.ok (Bool.and_intro p.admits_byte h) rfl
  · exact (takeMoffs_wf p t).andThen fun _ _ h => AnswersInstr.ok (Bool.and_intro p.admits_opSize h) rfl
  · exact (takeMoffs_wf p t).andThen fun _ _ h => AnswersInstr.ok (Bool.and_intro p.admits_byte h) rfl
  · exact (takeMoffs_wf p t).andThen fun _ _ h => AnswersInstr.ok (Bool.and_intro p.admits_opSize h) rfl
  · exact .error _

theorem decodeA8_wf (p : Prefixes) (lo : Nat) (t : List Byte) : AnswersInstr (decodeA8 p lo t) := by
  unfold decodeA8
  split
  · exact .field fun _ _ => .ok p.admits_byte rfl
  · exact .field fun _ _ => .ok p.admits_opSize rfl
  · exact .error _

theorem decodeC0_wf (p : Prefixes) (lo : Nat) (t : List Byte) : AnswersInstr (decodeC0 p lo t) := by
  unfold decodeC0
  split
  · exact decodeShiftImm_wf p.admits_byte t
  · exact decodeShiftImm_wf p.admits_opSize t
  · exact .only16 fun ho => .field fun _ _ => .ok ho rfl
  · exact .only16 fun ho => .ok ho rfl
  · exact decodeMovImm_wf p.admits_byte t
  · exact decodeMovImm_wf p.admits_opSize t
  · exact .error _

theorem decodeC8_wf (p : Prefixes) (lo : Nat) (t : List Byte) : AnswersInstr (decodeC8 p lo t) := by
  unfold decodeC8
  split
  · exact .only16 fun ho => .field fun _ _ => .ok ho rfl
  iterate 2 exact .only16 fun ho => .ok ho rfl
  exact .error _

theorem decodeD0_wf (p : Prefixes) (lo : Nat) (t : List Byte) : AnswersInstr (decodeD0 p lo t) := by
  unfold decodeD0
  split
  · exact decodeShift_wf p.admits_byte _ t
  · exact decodeShift_wf p.admits_opSize _ t
  · exact decodeShift_wf p.admits_byte _ t
  · exact decodeShift_wf p.admits_opSize _ t
  · exact .error _

theorem decodeE0_wf (p : Prefixes) (lo : Nat) (t : List Byte) : AnswersInstr (decodeE0 p lo t) := by
  unfold decodeE0
  split
  · exact .field fun _ _ => .ok p.admits_byte rfl
  · exact .field fun _ _ => .ok p.admits_opSize rfl
  · exact .field fun _ _ => .ok p.admits_byte rfl
  · exact .field fun _ _ => .ok p.admits_opSize rfl
  · exact .error _

theorem decodeE8_wf (p : Prefixes) (lo : Nat) (t : List Byte) : AnswersInstr (decodeE8 p lo t) := by
  unfold decodeE8
  split
  · exact .only16 fun ho => .field fun _ _ => .ok ho rfl
  · exact (takeRel_wf p t).andThen fun _ _ h => AnswersInstr.ok h rfl
  · exact .only16 fun ho => .field fun _ _ => .field fun _ _ => .ok ho rfl
  · exact (takeRel8_wf p t).andThen fun _ _ h => AnswersInstr.ok h rfl
  · exact .ok p.admits_byte rfl
  · exact .ok p.admits_opSize rfl
  · exact .ok p.admits_byte rfl
  · exact .ok p.admits_opSize rfl

theorem decodeF0_wf (p : Prefixes) (lo : Nat) (t : List Byte) : AnswersInstr (decodeF0 p lo t) := by
  unfold decodeF0
  split
  · exact .ok rfl rfl
  · exact decodeGroupUnary_wf p.admits_byte t
  · exact decodeGroupUnary_wf p.admits_opSize t
  · exact .error _

theorem decodeF8_wf (p : Prefixes) (lo : Nat) (t : List Byte) : AnswersInstr (decodeF8 p lo t) := by
  unfold decodeF8
  split
  iterate 4 exact .ok rfl rfl
  · exact decodeGroupFE_wf p t
  · exact decodeGroupFF_wf p t
  · exact .error _

theorem decodeTwoByte_wf (p : Prefixes) (t : List Byte) : AnswersInstr (decodeTwoByte p t) := by
  unfold decodeTwoByte
  split
  · exact .error _
  · next b t =>
    split
    · exact (takeRel_wf p t).andThen fun _ _ h => AnswersInstr.jcc h
    · exact (takeRel_wf p t).andThen fun _ _ h => AnswersInstr.jcc h
    · exact .ok rfl rfl
    · exact .ok rfl rfl
    · exact .modRM fun _ _ _ h => .ok h rfl
    · exact .ok rfl rfl
    · exact .ok rfl rfl
    · exact .modRM fun _ _ _ h => .ok h rfl
    · exact .modRM fun _ _ _ h => .ok h rfl
    · split
      · next ho => exact .modRM fun _ _ _ h => .ok (Bool.and_intro ho h) rfl
      · exact .error _
    · exact decodeBtImm_wf p t
    · exact .modRM fun _ _ _ h => .ok h rfl
    · split
      · next ho => exact .modRM fun _ _ _ h => .ok (Bool.and_intro ho h) rfl
      · exact .error _
    · exact .error _

theorem decodeLow_wf (p : Prefixes) (hi lo : Nat) (t : List Byte) : AnswersInstr (decodeLow p hi lo t) := by
  unfold decodeLow
  split
  · exact decodeAlu_wf p hi lo t
  · split
    iterate 3 exact .ok rfl rfl
    · exact decodeTwoByte_wf p t
    iterate 4 exact .ok rfl rfl
    exact .error _

/-- The map of R151 answers instructions of the subset alone, under their primary mnemonics. -/
theorem decodeOpcode_wf (p : Prefixes) (b : Byte) (t : List Byte) : AnswersInstr (decodeOpcode p b t) := by
  unfold decodeOpcode
  dsimp only
  split
  iterate 4 exact .ok rfl rfl
  · exact .error _
  · exact decode68_wf p _ t
  · exact (takeRel8_wf p t).andThen fun _ _ h => AnswersInstr.jcc h
  · exact (takeRel8_wf p t).andThen fun _ _ h => AnswersInstr.jcc h
  · exact decode80_wf p _ t
  · exact decode88_wf p _ t
  · exact decode90_wf p _ t
  · exact decode98_wf p _ t
  · exact decodeA0_wf p _ t
  · exact decodeA8_wf p _ t
  · exact .field fun _ _ => .ok p.admits_byte rfl
  · exact .field fun _ _ => .ok p.admits_opSize rfl
  · exact decodeC0_wf p _ t
  · exact decodeC8_wf p _ t
  · exact decodeD0_wf p _ t
  · exact .error _
  · exact decodeE0_wf p _ t
  · exact decodeE8_wf p _ t
  · exact decodeF0_wf p _ t
  · exact decodeF8_wf p _ t
  · exact decodeLow_wf p _ _ t

/-- The decoder answers instructions of the subset alone, under their primary mnemonics. -/
theorem decode_wf (bs : List Byte) : AnswersInstr (decode bs) := by
  refine .field fun p t => ?_
  split
  · exact .error _
  · exact decodeOpcode_wf p _ _

/-! ## The longest instruction (R147) -/

theorem Prefixes.size_le (p : Prefixes) : p.size ≤ 3 := by
  have h := Bool.toNat_le p.addr32
  have h' := Bool.toNat_le p.op32
  have h'' := Bool.toNat_le p.seg.isSome
  unfold Prefixes.size
  omega

theorem Disp16.bytes_length_le (d : Disp16) : d.bytes.length ≤ 2 := by cases d <;> simp [Disp16.bytes, wordBytes]

theorem Disp32.bytes_length_le (d : Disp32) : d.bytes.length ≤ 4 := by cases d <;> simp [Disp32.bytes, dwordBytes]

/-- A memory operand takes at most a ModR/M byte, a SIB byte and a doubleword. -/
theorem Mem.size_le (m : Mem) : m.size ≤ 6 := by
  cases m with
  | base16 b d => exact Nat.le_trans (Nat.succ_le_succ d.bytes_length_le) (by decide)
  | base32 b d => exact Nat.le_trans (Nat.succ_le_succ d.bytes_length_le) (by decide)
  | sib b idx ss d => exact Nat.add_le_add_right d.bytes_length_le 2
  | abs16 v | abs32 v | sibAbs idx ss v => simp [Mem.size]

theorem RM.size_le (rm : RM) : rm.size ≤ 6 := by
  cases rm with
  | reg r => simp [RM.size]
  | mem m => exact m.size_le

theorem Rel.size_le (rel : Rel) : rel.size ≤ 4 := by cases rel <;> simp [Rel.size]

theorem Count.size_le (n : Count) : n.size ≤ 1 := by cases n <;> simp [Count.size]

theorem jccBytes_length_le (cc : Byte) (rel : Rel) : (jccBytes cc rel).length ≤ 11 := by
  cases rel <;> simp [jccBytes, wordBytes, dwordBytes]

theorem Moffs.bytes_length_le (off : Moffs) : off.bytes.length ≤ 4 := by
  cases off <;> simp [Moffs.bytes, wordBytes, dwordBytes]

theorem AluForm.size_le (f : AluForm) : f.size ≤ 11 := by
  cases f with
  | accImm w imm =>
    have := Width.bytes_le w
    simp only [AluForm.size]; omega
  | rmImm w rm imm =>
    have := Width.bytes_le w
    have := rm.size_le
    simp only [AluForm.size]; omega
  | rmImm8 w rm imm | rmReg w rm r | regRm w r rm =>
    have := rm.size_le
    simp only [AluForm.size]; omega

/-- An instruction takes at most eleven bytes after its prefixes: `69 /r` and the forms of R243 with a SIB byte, a
disp32 and an imm32. -/
theorem Instr.body_length_le (i : Instr) : i.body.length ≤ 11 := by
  cases i with
  | add p f | or p f | adc p f | sbb p f | and p f | sub p f | xor p f | cmp p f =>
    exact (f.bytes_length _).trans_le f.size_le
  | test p f =>
    cases f with
    | accImm w imm =>
      have := Width.bytes_le w
      simp [Instr.body, TestForm.bytes]; omega
    | rmImm w rm imm =>
      have := Width.bytes_le w
      have := rm.size_le
      simp [Instr.body, TestForm.bytes]; omega
    | rmReg w rm r =>
      have := rm.size_le
      simp [Instr.body, TestForm.bytes]; omega
  | rol p w rm n | ror p w rm n | rcl p w rm n | rcr p w rm n | sal p w rm n | shl p w rm n | shr p w rm n
  | sar p w rm n =>
    have := rm.size_le
    have := n.size_le
    simp only [Instr.body, shiftBytes_length]; omega
  | jo p rel | jno p rel | jb p rel | jc p rel | jnae p rel | jae p rel | jnb p rel | jnc p rel | je p rel
  | jz p rel | jne p rel | jnz p rel | jbe p rel | jna p rel | ja p rel | jnbe p rel | js p rel | jns p rel
  | jp p rel | jpe p rel | jnp p rel | jpo p rel | jl p rel | jnge p rel | jge p rel | jnl p rel | jle p rel
  | jng p rel | jg p rel | jnle p rel =>
    exact jccBytes_length_le _ rel
  | jmpRel p rel =>
    have := rel.size_le
    simp only [Instr.body, jmpBytes_length]; omega
  | jmpMem p m | callMem p m =>
    have := m.size_le
    simp [Instr.body]; omega
  | imulRRmImm p w r rm imm | movRmImm p w rm imm =>
    have := Width.bytes_le w
    have := rm.size_le
    simp [Instr.body]; omega
  | movRImm p w r imm | pushImm p w imm =>
    have := Width.bytes_le w
    simp [Instr.body]; omega
  | movAccMoffs p w off | movMoffsAcc p w off =>
    have := off.bytes_length_le
    simp [Instr.body]; omega
  | not p w rm | neg p w rm | mul p w rm | imulAcc p w rm | div p w rm | idiv p w rm | imulRRm p r rm
  | imulRRmImm8 p r rm imm | incRm p w rm | decRm p w rm | btRmR p rm r | btRmImm p rm imm | movRmR p w rm r
  | movRRm p w r rm | movRmSreg p rm sr | movSregRm p sr rm | xchgRmR p w rm r | pushRm p rm | popRm p rm
  | movsx8 p r rm | movsx16 p r rm | movzx8 p r rm | movzx16 p r rm | jmpRm p rm | callRm p rm | lea p r rm =>
    have := rm.size_le
    simp [Instr.body]; omega
  | pushSreg p sr => cases sr <;> simp [Instr.body, pushSregBytes]
  | popSreg p sr => cases sr <;> simp [Instr.body, popSregBytes]
  | incR | decR | xchgAcc | pushR | popR | cwd | cdq | jmpPtr | callRel | callPtr | retFar | retFarImm | retNear
  | retNearImm | iret | stc | clc | cmc | cli | sti | inImm | inDx | outImm | outDx | nop =>
    simp [Instr.body, wordBytes]

/-- An instruction takes a byte or more after its prefixes, for the decoder reads it there. -/
theorem Instr.body_length_pos {i : Instr} (h : i.WellFormed) : 1 ≤ i.body.length := by
  have hd := decodeBody_body h []
  cases hb : i.body with
  | nil =>
    rw [hb] at hd
    cases hd
  | cons b bs => exact Nat.succ_le_succ (Nat.zero_le _)

theorem Instr.length_eq (i : Instr) : i.length = i.prefixes.size + i.body.length := by
  rw [Instr.length, encode, List.length_append, Prefixes.bytes_length]

/-- Settles O2: each map answers instructions of the subset, and the bytes read are those of the instruction. -/
theorem decodedIsWellFormed : Obligations.DecodedIsWellFormed := by
  intro bs i rest h
  obtain ⟨hw, hc⟩ := decode_wf bs i rest h
  have hpos := Instr.body_length_pos hw
  have hbody := i.body_length_le
  have hprefixes := i.prefixes.size_le
  have hlen := i.length_eq
  exact ⟨hw, hc, (decode_length h).symm, by omega, by omega⟩

end Sys2Proof
end

section
/-!
PROOFS. Data movement (R200 to R220): MOV, XCHG, PUSH, POP, MOVSX, MOVZX, CWD and CDQ complete when their operands
can be reached.
-/

namespace Sys2Proof.Machine

/-! ## Instructions that complete -/

/-- An instruction retires with what its effect answers. -/
theorem exec_of_effect {s t : State} {i : Instr} {r : Except Trap State} (he : exec i s = s.retire i.length r)
    (hr : r = .ok t) : exec i s = s.retire i.length (.ok t) :=
  he.trans (congrArg _ hr)

/-- A register instruction whose effect begins with a computation that answers. -/
theorem State.completesWith_of_read {s : State} {i : Instr} {α : Type} {x : Except Trap α} {a : α}
    {f : α → Except Trap State} {r : Reg} {w : Width} {v : BitVec w.bits}
    (he : exec i s = s.retire i.length (x >>= f)) (hx : x = .ok a) (hf : f a = .ok (s.setReg r w v)) :
    s.completesWith i (.reg r) w v keepFlags :=
  State.completesWith_of_setReg (exec_of_effect he ((bind_of_ok hx).trans hf))

/-- The row of R49 that keeps every flag changes nothing. -/
theorem State.writeStatus_keepFlags (s : State) : s.writeStatus keepFlags = s := rfl

/-- An instruction that only writes its r/m operand completes. -/
theorem State.completesWith_of_writeRM {s : State} {i : Instr} {rm : RM} {w : Width} {v : BitVec w.bits}
    (hwf : s.mem.wf = true) (h : s.reaches i.prefixes rm w)
    (he : exec i s = s.retire i.length (s.writeRM s i.prefixes rm w v)) : s.completesWith i rm w v keepFlags :=
  State.completesWith_of_put hwf h (by rwa [State.writeStatus_keepFlags])

/-- `i` completes in `s` with the registers `g`, storing `v` at the linear address `a`, and changes nothing else:
what `State.pushes` says of a push, for any address and registers. -/
def State.completesStore (s : State) (i : Instr) (g : Regs) (a : Nat) (w : Width) (v : BitVec w.bits) : Prop :=
  ∃ t, exec i s = .next t ∧ t.regs = g ∧ s.stores t a w v ∧ t.segs = s.segs ∧ t.flags = s.flags ∧
    s.sameControl t ∧ s.goesOn t i

/-- A push is a store at the new top of stack with SP moved down (R96). -/
theorem State.pushes_iff {s : State} {i : Instr} {w : Width} {v : BitVec w.bits} :
    s.pushes i w v ↔ s.completesStore i (s.pushedRegs w.bytes) (s.linear .ss (s.below w.bytes)) w v :=
  Iff.rfl

/-- An instruction that writes registers and one operand in plain memory completes, whatever it draws. -/
theorem State.completesStore_of_storeBytes {s : State} {i : Instr} {g : Regs} {k a : Nat} {w : Width}
    {v : BitVec w.bits} (hwf : s.mem.wf = true) (ha : a + w.bytes ≤ 2 ^ 32)
    (he : exec i s = s.retire i.length
      (.ok (({ s with regs := g, draws := k } : State).storeBytes a (leBytes w v)))) :
    s.completesStore i g a w v :=
  ⟨_, he, rfl, State.stores_storeBytes hwf ha rfl rfl, rfl, rfl, State.sameControl_refl s, rfl⟩

/-! ## MOV -/

/-- Settles O40: each form is one write, of the r/m operand or of the moffs operand. -/
theorem movToOperandCompletes : Obligations.MovToOperandCompletes := by
  intro s p w rm r sr imm off hwf
  refine ⟨fun h => ⟨?_, ?_⟩, fun h => ?_, fun h => ?_⟩
  · exact State.completesWith_of_writeRM hwf h rfl
  · exact State.completesWith_of_writeRM hwf h rfl
  · exact State.completesWith_of_writeRM hwf h rfl
  · exact State.completesStore_of_storeBytes hwf (State.reachesAt_bound h)
      (exec_of_effect rfl (State.memWrite_ok h))

/-- Settles O41: each form reads its operand, if it has one, and writes the register. -/
theorem registerLoadsComplete : Obligations.RegisterLoadsComplete := by
  intro s p w rm r imm off
  refine ⟨State.completesWith_of_setReg rfl, fun h => ?_, fun h => ⟨?_, ?_⟩, fun h => ⟨?_, ?_⟩, fun h => ?_⟩
  · exact State.completesWith_of_read rfl (State.readRM_ok h) rfl
  · exact State.completesWith_of_read rfl (State.readRM_ok h) rfl
  · exact State.completesWith_of_read rfl (State.readRM_ok h) rfl
  · exact State.completesWith_of_read rfl (State.readRM_ok h) rfl
  · exact State.completesWith_of_read rfl (State.readRM_ok h) rfl
  · exact State.completesWith_of_read rfl (State.memRead_ok h) rfl

/-! ## Segment registers -/

/-- A segment register loaded: that register takes the word, and the window opens for SS alone (R60). -/
theorem State.loadSreg_eq (s : State) (sr : SReg) (v : Word) :
    s.loadSreg sr v = { s.setSreg sr v with inhibit := decide (sr = .ss) || s.inhibit } := by
  by_cases h : sr = .ss
  · simp only [State.loadSreg, h, decide_true, Bool.true_or]
    rfl
  · simp only [State.loadSreg, h, decide_false, Bool.false_or]
    rfl

/-- An instruction that writes registers and loads a segment register completes. -/
theorem State.completes_of_loadSreg {s : State} {i : Instr} {g : Regs} {sr : SReg} {v : Word}
    (he : exec i s = s.retire i.length (.ok (({ s with regs := g } : State).loadSreg sr v))) :
    ∃ t, exec i s = .next t ∧ t.regs = g ∧ s.sameMemory t ∧ t.segs = s.segs.set sr v ∧ t.flags = s.flags ∧
      s.sameControl { t with inhibit := s.inhibit } ∧ t.inhibit = (decide (sr = .ss) || s.inhibit) ∧
      s.goesOn t i := by
  rw [State.loadSreg_eq, State.retire_ok] at he
  exact ⟨_, he, rfl, ⟨rfl, rfl⟩, rfl, rfl, State.sameControl_refl s, rfl, rfl⟩

/-- The low word of a doubleword is the word at its address (R84). -/
theorem Memory.read_dword_low (m : Memory) (a : Nat) : (m.read a .dword).setWidth 16 = m.read a .word := by
  apply BitVec.eq_of_toNat_eq
  have h0 := (m.get a).isLt
  have h1 := (m.get (a + 1)).isLt
  simp only [Memory.read, BitVec.toNat_setWidth, toNat_append_eq]
  omega

/-- The low word of what a POP pops is the word at the top of the stack, whatever the operand size. -/
theorem Memory.read_opSize_low (m : Memory) (a : Nat) (p : Prefixes) :
    (m.read a p.opSize).setWidth 16 = m.read a .word := by
  obtain ⟨op32, a32, seg⟩ := p
  cases op32 with
  | false => exact BitVec.setWidth_eq _
  | true => exact Memory.read_dword_low m a

/-- Settles O42: by `State.loadSreg_eq`; of a doubleword popped the register takes the low word. -/
theorem segmentLoadsComplete : Obligations.SegmentLoadsComplete := by
  intro s p sr rm _
  refine ⟨fun h => ?_, fun h => ?_⟩
  · exact State.completes_of_loadSreg (exec_of_effect rfl (bind_of_ok (State.readRM_ok h)))
  · have effect := bind_of_ok (f := fun x => .ok (x.2.loadSreg sr (x.1.setWidth 16))) (State.pop_ok h)
    rw [Memory.read_opSize_low] at effect
    exact State.completes_of_loadSreg (exec_of_effect rfl effect)

/-! ## XCHG -/

/-- Settles O43: both values are read before either is written, the memory operand, if there is one, first. -/
theorem exchangeCompletes : Obligations.ExchangeCompletes := by
  intro s p w r b m hwf
  refine ⟨State.completesRegs_of_regs rfl, State.completesRegs_of_regs rfl, fun h => ?_⟩
  have write : s.writeRM s p (.mem m) w (s.reg r w) = .ok (s.put s p (.mem m) w (s.reg r w)) :=
    State.writeRM_ok rfl rfl rfl h
  exact State.completesStore_of_storeBytes hwf (State.reachesAt_bound h)
    (exec_of_effect rfl ((bind_of_ok (State.readRM_ok h)).trans (bind_of_ok write)))

/-! ## PUSH -/

/-- A push that fits lies within the address space (R82). -/
theorem State.canPush_bound {s : State} {n : Nat} (h : s.canPush 0 n) : s.linear .ss (s.below n) + n ≤ 2 ^ 32 := by
  rw [State.canPush, Nat.zero_add] at h
  exact State.reachesAt_bound h

/-- An instruction that draws free values and pushes one item completes. -/
theorem State.pushes_of_drew_push {s : State} {i : Instr} {w : Width} {v : BitVec w.bits} {k : Nat}
    {r : Except Trap State} (hwf : s.mem.wf = true) (h : s.canPush 0 w.bytes) (he : exec i s = s.retire i.length r)
    (hr : r = (s.drew k).push w v) : s.pushes i w v :=
  State.pushes_iff.2 (State.completesStore_of_storeBytes hwf (State.canPush_bound h)
    (exec_of_effect he (hr.trans (State.push_ok (s := s.drew k) h))))

theorem State.drew_zero (s : State) : s.drew 0 = s := rfl

/-- An instruction that pushes one item completes. -/
theorem State.pushes_of_push {s : State} {i : Instr} {w : Width} {v : BitVec w.bits} {r : Except Trap State}
    (hwf : s.mem.wf = true) (h : s.canPush 0 w.bytes) (he : exec i s = s.retire i.length r)
    (hr : r = s.push w v) : s.pushes i w v :=
  State.pushes_of_drew_push (k := 0) hwf h he (by rwa [State.drew_zero])

/-- The low half of two words is the second. -/
theorem setWidth_word_append (x y : Word) : (x ++ y).setWidth 16 = y := by
  rw [BitVec.setWidth_append, dif_pos (le_refl 16), BitVec.setWidth_eq]

/-- PUSH Sreg pushes the selector, below a free word when the item is a doubleword (R213, U3). -/
theorem State.pushSeg_eq (s : State) (p : Prefixes) (v : Word) : ∃ (x : BitVec p.opSize.bits) (k : Nat),
    x.setWidth 16 = v ∧ s.pushSeg p.opSize v = (s.drew k).push p.opSize x := by
  obtain ⟨op32, a32, seg⟩ := p
  cases op32 with
  | false => exact ⟨v, 0, BitVec.setWidth_eq v, rfl⟩
  | true => exact ⟨Config.undefinedWord s.draws ++ v, 1, setWidth_word_append _ v, rfl⟩

/-- Settles O44: each form pushes a value of the state before it. -/
theorem pushCompletes : Obligations.PushCompletes := by
  intro s p rm r w imm sr hwf
  refine ⟨fun hrm h => ?_, fun h => ?_, fun h => ?_, fun h => ?_⟩
  · have effect := bind_of_ok (f := fun x => x.2.push p.opSize x.1) (State.readRM_ok hrm)
    exact State.pushes_of_push hwf h rfl effect
  · exact State.pushes_of_push hwf h rfl rfl
  · exact State.pushes_of_push hwf h rfl rfl
  · obtain ⟨x, k, hx, hpush⟩ := s.pushSeg_eq p (s.sreg sr)
    exact ⟨x, hx, State.pushes_of_drew_push hwf h rfl hpush⟩

/-! ## POP -/

/-- Settles O45: SP moves before the value is written, to a register over it and to memory at the address formed in
the state before. -/
theorem popCompletes : Obligations.PopCompletes := by
  intro s p r m hwf h v
  have pop : s.pop p.opSize = .ok (v, s.setSp (s.sp + BitVec.ofNat 16 p.opSize.bytes)) := State.pop_ok h
  refine ⟨?_, ?_, fun hesp hm => ?_, fun hesp => ?_⟩
  · exact State.completesRegs_of_regs (exec_of_effect rfl (bind_of_ok pop))
  · exact State.completesRegs_of_regs (exec_of_effect (exec_popRm rfl) (bind_of_ok pop))
  · exact State.completesStore_of_storeBytes hwf (State.reachesAt_bound hm)
      (exec_of_effect (exec_popRm hesp) ((bind_of_ok pop).trans (State.writeRM_ok rfl rfl rfl hm)))
  · exact congrArg (s.retire _) (if_pos hesp)

/-! ## CWD and CDQ -/

/-- The high half of a sign extension to twice the width is all ones or 0 by the sign. -/
theorem signExtend_high {n : Nat} (x : BitVec n) :
    (x.signExtend (n + n)).extractLsb' n n = if x.msb then BitVec.allOnes n else 0 := by
  ext i hi
  rw [BitVec.getElem_extractLsb', BitVec.getLsbD_signExtend]
  cases x.msb <;> simp [hi]

/-- Settles O46: by `signExtend_high`. -/
theorem signFillCompletes : Obligations.SignFillCompletes := by
  intro s p
  refine ⟨rfl, rfl, rfl, rfl, ?_, ?_⟩
  · rw [signExtend_high (n := 16)]
    exact State.completesWith_of_setReg rfl
  · rw [signExtend_high (n := 32)]
    exact State.completesWith_of_setReg rfl

end Sys2Proof.Machine
end

section
/-!
PROOFS. ADD, ADC, SUB, SBB, CMP and NEG (R244 to R247, R250, R251) complete when their operands can be reached.
-/

namespace Sys2Proof.Machine

/-! ## The two-operand forms (R243) -/

/-- A two-operand instruction whose operands can be reached writes its result and its flags. -/
theorem State.binary_ok {s : State} {p : Prefixes} {f : AluForm} (h : s.reachesForm p f)
    (g : (n : Nat) → BitVec n → BitVec n → BitVec n × StatusWrite) :
    s.binary p f g =
      s.writeRM (s.writeStatus (g _ (s.destination p f) (s.source p f)).2) p f.dest f.width
        (g _ (s.destination p f) (s.source p f)).1 :=
  (bind_of_ok (State.readRM_ok h.1)).trans (bind_of_ok (State.aluSrc_ok h))

/-- A two-operand instruction that computes `v` and the flags `u` completes with them. -/
theorem State.completesWith_of_binary {s : State} {i : Instr} {f : AluForm}
    {g : (n : Nat) → BitVec n → BitVec n → BitVec n × StatusWrite} {v : BitVec f.width.bits} {u : StatusWrite}
    (hwf : s.mem.wf = true) (h : s.reachesForm i.prefixes f)
    (he : exec i s = s.retire i.length (s.binary i.prefixes f g))
    (hg : g _ (s.destination i.prefixes f) (s.source i.prefixes f) = (v, u)) :
    s.completesWith i f.dest f.width v u := by
  rw [State.binary_ok h, hg] at he
  exact State.completesWith_of_put hwf h.1 he

/-! ## ADD, ADC, SUB, SBB and CMP -/

/-- What ADC computes (R245). -/
theorem addWith_eq (c : Bool) (n : Nat) (a b : BitVec n) :
    addWith c n a b = (a + b + BitVec.ofNat n c.toNat, addFlags a b c) := by
  rw [addWith, addResult_eq]

/-- What ADD computes (R244). -/
theorem addWith_false (n : Nat) (a b : BitVec n) : addWith false n a b = (a + b, addFlags a b false) := by
  simp [addWith_eq]

/-- What SBB computes (R247). -/
theorem subWith_eq (c : Bool) (n : Nat) (a b : BitVec n) :
    subWith c n a b = (a - b - BitVec.ofNat n c.toNat, subFlags a b c) := by
  rw [subWith, subResult_eq]

/-- What SUB computes (R246). -/
theorem subWith_false (n : Nat) (a b : BitVec n) : subWith false n a b = (a - b, subFlags a b false) := by
  simp [subWith_eq]

/-- Settles O20: ADD and ADC are one write, of the sum that `addWith_eq` gives. -/
theorem addsComplete : Obligations.AddsComplete := by
  intro s p f hwf h a b
  exact ⟨State.completesWith_of_binary hwf h rfl (addWith_false _ a b),
    State.completesWith_of_binary hwf h rfl (addWith_eq s.flags.cf _ a b)⟩

/-- Settles O21: SUB and SBB are one write, of the difference that `subWith_eq` gives. -/
theorem subtractsComplete : Obligations.SubtractsComplete := by
  intro s p f hwf h a b
  exact ⟨State.completesWith_of_binary hwf h rfl (subWith_false _ a b),
    State.completesWith_of_binary hwf h rfl (subWith_eq s.flags.cf _ a b)⟩

/-- CMP whose operands can be reached writes the flags of the subtraction. -/
theorem State.compare_ok {s : State} {p : Prefixes} {f : AluForm} (h : s.reachesForm p f) :
    s.compare p f = .ok (s.writeStatus (subFlags (s.destination p f) (s.source p f) false)) :=
  (bind_of_ok (State.readRM_ok h.1)).trans (bind_of_ok (State.aluSrc_ok h))

/-- Settles O22: CMP reads both operands and ends with the flags. -/
theorem compareWritesFlagsOnly : Obligations.CompareWritesFlagsOnly := by
  intro s p f h
  exact State.completesRegs_of_status (exec_of_effect rfl (State.compare_ok h))

/-! ## NEG -/

/-- The result of NEG is the negative (R251). -/
theorem subResult_zero {n : Nat} (a : BitVec n) : subResult 0 a false = -a := by
  simp [subResult_eq]

/-- CF of NEG: only 0 borrows nothing (R251). -/
theorem subFlags_zero_cf {n : Nat} (a : BitVec n) : (subFlags 0 a false).cf = .put (decide (a ≠ 0)) := by
  refine congrArg FlagWrite.put (decide_eq_decide.2 ?_)
  rw [ne_eq, ← BitVec.toNat_inj]
  simp only [BitVec.ofNat_eq_ofNat, BitVec.toNat_ofNat, Nat.zero_mod, Bool.toNat_false]
  omega

/-- OF of NEG: only the most negative value overflows (R251). -/
theorem subFlags_zero_ovf {n : Nat} (a : BitVec n) :
    (subFlags 0 a false).ovf = .put (decide (a.toInt = -2 ^ (n - 1))) := by
  have h := a.toInt_lt
  have h' := a.le_toInt
  refine congrArg FlagWrite.put (Bool.eq_iff_iff.2 ((outOfRange_iff _ _).trans ?_))
  simp only [BitVec.ofNat_eq_ofNat, BitVec.toInt_zero, Bool.toNat_false, decide_eq_true_eq]
  omega

/-- What NEG computes: `SubFlags(0, a, 0, n)` with its CF and OF spelled out. -/
theorem negated_eq {n : Nat} (a : BitVec n) :
    negated a = (-a, { subFlags 0 a false with
      af := .undef, cf := .put (decide (a ≠ 0)), ovf := .put (decide (a.toInt = -2 ^ (n - 1))) }) := by
  rw [negated, subResult_zero, ← subFlags_zero_cf, ← subFlags_zero_ovf]
  rfl

/-- Settles O24: NEG is one read-modify-write with the result and flags of `negated_eq`. -/
theorem negCompletes : Obligations.NegCompletes := by
  intro s p w rm hwf h a
  have effect := State.unary_ok (g := negated) h
  rw [negated_eq] at effect
  exact State.completesWith_of_put (i := .neg p w rm) hwf h (congrArg (s.retire _) effect)

end Sys2Proof.Machine
end

section
/-!
PROOFS. MUL and IMUL (R252 to R257), DIV and IDIV (R258 to R260): the products are exact, quotient and remainder
obey the division rule, and a quotient that does not fit raises Interrupt 0.
-/

namespace Sys2Proof.Machine

/-! ## Exact products -/

/-- The opcode of the group of MUL, IMUL, DIV and IDIV by the operand width. -/
theorem opW_F6 (w : Width) : opW w 0xF6 = if w = .byte then 0xF6 else 0xF7 := by
  cases w <;> rfl

/-- The two halves of an unsigned number of 2n bits. -/
theorem toNat_halves {n x : Nat} (h : x < 2 ^ n * 2 ^ n) :
    (BitVec.ofNat n (x / 2 ^ n)).toNat * 2 ^ n + (BitVec.ofNat n x).toNat = x := by
  rw [BitVec.toNat_ofNat, BitVec.toNat_ofNat, Nat.mod_eq_of_lt (Nat.div_lt_of_lt_mul h), Nat.div_add_mod']

/-- The two halves of a signed number of 2n bits. -/
theorem toInt_halves {n : Nat} (hn : 0 < n) {x : Int} (hlo : -(2 ^ (n - 1) * 2 ^ n) ≤ x)
    (hhi : x < 2 ^ (n - 1) * 2 ^ n) :
    (BitVec.ofInt n (x / 2 ^ n) ++ BitVec.ofInt n x).toInt = x := by
  have hpos : (0 : Int) < 2 ^ n := by positivity
  have high : (BitVec.ofInt n (x / 2 ^ n)).toInt = x / 2 ^ n :=
    BitVec.toInt_ofInt_eq_self hn (Int.le_ediv_of_mul_le hpos (by rwa [neg_mul]))
      (Int.ediv_lt_of_lt_mul hpos hhi)
  have low : ((BitVec.ofInt n x).toNat : Int) = x % 2 ^ n := by
    rw [BitVec.toNat_ofInt, Int.toNat_of_nonneg (Int.emod_nonneg _ (by positivity))]
    push_cast
    rfl
  have hn0 : ¬(n == 0) = true := by simpa using hn.ne'
  rw [BitVec.toInt_append, if_neg hn0, high, low, Int.mul_ediv_add_emod]

/-- The product of two signed numbers of n bits is one of 2n bits (R253). -/
theorem toInt_mul_toInt_bounds {n : Nat} (hn : 0 < n) (x y : BitVec n) :
    -(2 ^ (n - 1) * 2 ^ n) ≤ x.toInt * y.toInt ∧ x.toInt * y.toInt < 2 ^ (n - 1) * 2 ^ n := by
  have lower : -2 ^ (n * 2 - 2) ≤ x.toInt * y.toInt := BitVec.le_toInt_mul_toInt
  have upper : x.toInt * y.toInt ≤ 2 ^ (n * 2 - 2) := BitVec.toInt_mul_toInt_le
  have double : (2 : Int) ^ (n - 1) * 2 ^ n = 2 ^ (n * 2 - 2) * 2 := by
    rw [← pow_add, ← pow_succ]
    congr 1
    omega
  have : (0 : Int) < 2 ^ (n * 2 - 2) := by positivity
  rw [double]
  omega

/-- A number is outside the signed range exactly when its low n bits do not give it back (R254). -/
theorem outOfRange_eq_not_toInt_ofInt {n : Nat} (hn : 0 < n) (x : Int) :
    outOfRange n x = decide ((BitVec.ofInt n x).toInt ≠ x) := by
  rw [Bool.eq_iff_iff, outOfRange_iff, decide_eq_true_eq]
  constructor
  · intro h e
    have := (BitVec.ofInt n x).toInt_lt
    have := (BitVec.ofInt n x).le_toInt
    omega
  · intro h
    by_contra hin
    exact h (BitVec.toInt_ofInt_eq_self hn (by omega) (by omega))

/-! ## MUL and IMUL -/

/-- An instruction that writes the accumulator pair and flags completes. -/
theorem State.completesRegs_of_setPair {s : State} {i : Instr} {w : Width} {hi lo : BitVec w.bits}
    {u : StatusWrite} {r : Except Trap State} (he : exec i s = s.retire i.length r)
    (hr : r = .ok ((s.setPair w hi lo).writeStatus u)) :
    s.completesRegs i ((s.regs.write .eax w lo).write (highReg w) w hi) u :=
  State.completesRegs_of_status (exec_of_effect he hr)

/-- MUL once its operand is read (R252). -/
theorem State.multiply_eq {s : State} {p : Prefixes} {w : Width} {rm : RM} (h : s.reaches p rm w) :
    s.multiply p w rm =
      let product := (s.reg .eax w).toNat * (s.operand p rm w).toNat
      let hi := BitVec.ofNat w.bits (product / 2 ^ w.bits)
      .ok ((s.setPair w hi (BitVec.ofNat w.bits product)).writeStatus (mulFlags (decide (hi ≠ 0)))) :=
  bind_of_ok (State.readRM_ok h)

/-- One-operand IMUL once its operand is read (R253). -/
theorem State.multiplySigned_eq {s : State} {p : Prefixes} {w : Width} {rm : RM} (h : s.reaches p rm w) :
    s.multiplySigned p w rm =
      let product := (s.reg .eax w).toInt * (s.operand p rm w).toInt
      let lo := BitVec.ofInt w.bits product
      .ok ((s.setPair w (BitVec.ofInt w.bits (product / 2 ^ w.bits)) lo).writeStatus
        (mulFlags (decide (product ≠ lo.toInt)))) := by
  rw [State.multiplySigned, State.readRM_ok h]
  rfl

/-- Settles O25: by `toNat_halves`, the product being below 2^n * 2^n. -/
theorem mulCompletes : Obligations.MulCompletes := by
  intro s p w rm h
  have small : (s.reg .eax w).toNat * (s.operand p rm w).toNat < 2 ^ w.bits * 2 ^ w.bits :=
    Nat.mul_lt_mul'' (s.reg .eax w).isLt (s.operand p rm w).isLt
  exact ⟨congrArg (· :: _) (opW_F6 w), _, _, toNat_halves small,
    State.completesRegs_of_setPair rfl (State.multiply_eq h)⟩

/-- Settles O26: by `toInt_halves`, the product being one of 2n bits. -/
theorem imulAccumulatorCompletes : Obligations.ImulAccumulatorCompletes := by
  intro s p w rm h
  have hn := Nat.zero_lt_of_lt (Width.one_lt_bits w)
  obtain ⟨lower, upper⟩ := toInt_mul_toInt_bounds hn (s.reg .eax w) (s.operand p rm w)
  have halves := toInt_halves hn lower upper
  refine ⟨congrArg (· :: _) (opW_F6 w), _, _, halves, ?_⟩
  rw [halves]
  exact State.completesRegs_of_setPair rfl (State.multiplySigned_eq h)

/-- An instruction that writes one register and flags completes. -/
theorem State.completesWith_of_setReg_status {s : State} {i : Instr} {r : Reg} {w : Width} {v : BitVec w.bits}
    {u : StatusWrite} (he : exec i s = s.retire i.length (.ok ((s.setReg r w v).writeStatus u))) :
    s.completesWith i (.reg r) w v u :=
  ⟨_, he, ⟨rfl, rfl, rfl⟩, rfl, StatusWrite.allows_apply u s.flags s.draws, State.sameControl_refl s, rfl⟩

/-- What the two- and three-operand IMUL writes: the product modulo 2^n, and in CF and OF whether it differs from
the exact one (R254 to R257). -/
theorem State.multiplyInto_eq (s : State) (w : Width) (r : Reg) (x y : BitVec w.bits) :
    s.multiplyInto w r x y =
      (s.setReg r w (x * y)).writeStatus (mulFlags (decide ((x * y).toInt ≠ x.toInt * y.toInt))) := by
  have product : BitVec.ofInt w.bits (x.toInt * y.toInt) = x * y := by
    rw [BitVec.ofInt_mul, BitVec.ofInt_toInt, BitVec.ofInt_toInt]
  have fits := outOfRange_eq_not_toInt_ofInt (Nat.zero_lt_of_lt (Width.one_lt_bits w)) (x.toInt * y.toInt)
  simp only [State.multiplyInto, productOverflows, fits, product]

/-- An instruction that reads something and multiplies into a register completes. -/
theorem State.completesWith_of_multiplyInto {s : State} {i : Instr} {α : Type} {a : α} {c : Except Trap α}
    {f : α → Except Trap State} {r : Reg} {w : Width} {x y : BitVec w.bits}
    (he : exec i s = s.retire i.length (c >>= f)) (hc : c = .ok a) (hf : f a = .ok (s.multiplyInto w r x y)) :
    s.completesWith i (.reg r) w (x * y) (mulFlags (decide ((x * y).toInt ≠ x.toInt * y.toInt))) := by
  rw [State.multiplyInto_eq] at hf
  exact State.completesWith_of_setReg_status (exec_of_effect he ((bind_of_ok hc).trans hf))

/-- Settles O27: by `State.multiplyInto_eq`; the forms differ in where the factors come from. -/
theorem imulRegisterCompletes : Obligations.ImulRegisterCompletes := by
  intro s p w r rm i8 imm flagsOf
  refine ⟨fun h => ⟨?_, ?_⟩, fun h => ?_⟩
  · exact State.completesWith_of_multiplyInto rfl (State.readRM_ok h) rfl
  · exact State.completesWith_of_multiplyInto rfl (State.readRM_ok h) rfl
  · exact State.completesWith_of_multiplyInto rfl (State.readRM_ok h) rfl

/-! ## Truncated division -/

/-- The remainder of a truncated division is smaller than the divisor (R259). -/
theorem abs_tmod_lt (n : Int) {d : Int} (hd : d ≠ 0) : |n.tmod d| < |d| := by
  have h := Nat.mod_lt n.natAbs (Int.natAbs_pos.2 hd)
  rw [← Int.natAbs_tmod] at h
  rw [Int.abs_eq_natAbs, Int.abs_eq_natAbs]
  exact_mod_cast h

/-- The remainder of a truncated division is 0 or has the sign of the dividend (R259). -/
theorem tmod_mul_self_nonneg (n d : Int) : 0 ≤ n.tmod d * n := by
  rcases le_total 0 n with h | h
  · exact mul_nonneg (Int.tmod_nonneg d h) h
  · have neg : 0 ≤ (-n).tmod d := Int.tmod_nonneg d (by omega)
    rw [Int.neg_tmod] at neg
    exact mul_nonneg_of_nonpos_of_nonpos (by omega) h

/-- A remainder by a divisor of n bits has n bits. -/
theorem toInt_ofInt_tmod {n : Nat} (hn : 0 < n) (x : Int) {d : BitVec n} (hd : d.toInt ≠ 0) :
    (BitVec.ofInt n (x.tmod d.toInt)).toInt = x.tmod d.toInt := by
  have small := abs_tmod_lt x hd
  have divisor : |d.toInt| ≤ 2 ^ (n - 1) := abs_le.2 ⟨d.le_toInt, d.toInt_lt.le⟩
  obtain ⟨lower, upper⟩ := abs_lt.1 (small.trans_le divisor)
  exact BitVec.toInt_ofInt_eq_self hn lower.le upper

/-! ## DIV and IDIV -/

/-- DIV once its divisor is read (R258). -/
theorem State.divide_eq {s : State} {p : Prefixes} {w : Width} {rm : RM} (h : s.reaches p rm w) :
    s.divide p w rm =
      if (s.operand p rm w).toNat = 0 then .error .divideError
      else if (s.pair w).toNat / (s.operand p rm w).toNat > 2 ^ w.bits - 1 then .error .divideError
      else .ok ((s.setPair w (BitVec.ofNat w.bits ((s.pair w).toNat % (s.operand p rm w).toNat))
        (BitVec.ofNat w.bits ((s.pair w).toNat / (s.operand p rm w).toNat))).writeStatus undefFlags) :=
  bind_of_ok (State.readRM_ok h)

/-- IDIV once its divisor is read (R259). -/
theorem State.divideSigned_eq {s : State} {p : Prefixes} {w : Width} {rm : RM} (h : s.reaches p rm w) :
    s.divideSigned p w rm =
      if (s.operand p rm w).toInt = 0 then .error .divideError
      else if outOfRange w.bits ((s.pair w).toInt.tdiv (s.operand p rm w).toInt) then .error .divideError
      else .ok ((s.setPair w (BitVec.ofInt w.bits ((s.pair w).toInt.tmod (s.operand p rm w).toInt))
        (BitVec.ofInt w.bits ((s.pair w).toInt.tdiv (s.operand p rm w).toInt))).writeStatus undefFlags) :=
  bind_of_ok (State.readRM_ok h)

/-- Settles O28: quotient and remainder both have w bits, so that they are read back exact. -/
theorem divCompletes : Obligations.DivCompletes := by
  intro s p w rm h d n hd hq
  have hr : n % d < d := Nat.mod_lt n (Nat.pos_of_ne_zero hd)
  have quotient : (BitVec.ofNat w.bits (n / d)).toNat = n / d := Nat.mod_eq_of_lt hq
  have remainder : (BitVec.ofNat w.bits (n % d)).toNat = n % d :=
    Nat.mod_eq_of_lt (hr.trans (s.operand p rm w).isLt)
  refine ⟨BitVec.ofNat w.bits (n / d), BitVec.ofNat w.bits (n % d), ?_, ?_, State.completesRegs_of_setPair rfl
    ((State.divide_eq h).trans ((if_neg hd).trans (if_neg ?_)))⟩
  · rw [quotient, remainder]
    exact (Nat.div_add_mod' n d).symm
  · rwa [remainder]
  · exact Nat.not_lt.2 (Nat.le_sub_one_of_lt hq)

/-- Settles O29: quotient and remainder both have w bits, so that they are read back exact. -/
theorem idivCompletes : Obligations.IdivCompletes := by
  intro s p w rm h d n hd hlo hhi
  have hn := Nat.zero_lt_of_lt (Width.one_lt_bits w)
  have quotient : (BitVec.ofInt w.bits (n.tdiv d)).toInt = n.tdiv d := BitVec.toInt_ofInt_eq_self hn hlo hhi
  have remainder : (BitVec.ofInt w.bits (n.tmod d)).toInt = n.tmod d := toInt_ofInt_tmod hn n hd
  refine ⟨BitVec.ofInt w.bits (n.tdiv d), BitVec.ofInt w.bits (n.tmod d), ?_, ?_, ?_,
    State.completesRegs_of_setPair rfl ((State.divideSigned_eq h).trans ((if_neg hd).trans (if_neg ?_)))⟩
  · rw [quotient, remainder]
    exact (Int.tdiv_mul_add_tmod n d).symm
  · rw [remainder]
    exact abs_tmod_lt n hd
  · rw [remainder]
    exact tmod_mul_self_nonneg n d
  · rw [outOfRange_iff]
    exact fun out => out.elim hlo.not_gt hhi.not_ge

/-- A divide error is Interrupt 0 with the instruction's own offset and free status flags in the image
(R260, R404, D9, D16). -/
theorem exec_of_divideError {s : State} {i : Instr} {len : Nat} {r : Except Trap State}
    (he : exec i s = s.retire len r) (hr : r = .error .divideError) :
    exec i s = s.interrupt 0 (s.eip.extractLsb' 0 16) true :=
  he.trans (congrArg _ hr)

/-- Settles O30: each of the two conditions is one of the tests that DIV and IDIV make. -/
theorem divideErrorRaises : Obligations.DivideErrorRaises := by
  intro s p w rm h d n
  refine ⟨fun bad => exec_of_divideError rfl ((State.divide_eq h).trans ?_),
    fun bad => exec_of_divideError rfl ((State.divideSigned_eq h).trans ?_)⟩
  · rcases bad with hd | hq
    · exact if_pos (congrArg BitVec.toNat hd)
    · exact ite_eq_left_iff.2 fun _ => if_pos (Nat.sub_one_lt_of_le (Nat.two_pow_pos _) hq)
  · rcases bad with hd | hq
    · exact if_pos ((congrArg BitVec.toInt hd).trans BitVec.toInt_zero)
    · exact ite_eq_left_iff.2 fun _ => if_pos ((outOfRange_iff _ _).2 hq)

end Sys2Proof.Machine
end

section
/-!
PROOFS. Logical instructions and bit test (R280 to R286): AND, OR, XOR, NOT, TEST and BT complete when their operands
can be reached, and BT outside its segment raises Interrupt 13.
-/

namespace Sys2Proof.Machine

/-! ## AND, OR, XOR, NOT and TEST -/

/-- Settles O31: each is one write, of the result of its Boolean operation with the flags of R54. -/
theorem logicCompletes : Obligations.LogicCompletes := by
  intro s p f hwf h flagsOf a b
  refine ⟨?_, ?_, ?_⟩
  · exact State.completesWith_of_binary hwf h rfl rfl
  · exact State.completesWith_of_binary hwf h rfl rfl
  · exact State.completesWith_of_binary hwf h rfl rfl

/-- Settles O32: NOT is one read-modify-write with the row of R49 that keeps every flag. -/
theorem notCompletes : Obligations.NotCompletes := by
  intro s p w rm hwf h
  have effect := State.unary_ok (g := fun a => (~~~a, keepFlags)) h
  exact ⟨congrArg (· :: _) (opW_F6 w),
    State.completesWith_of_put (i := .not p w rm) hwf h (congrArg (s.retire _) effect)⟩

/-- An instruction that reads something and then writes flags alone completes. -/
theorem State.completesRegs_of_read {s : State} {i : Instr} {α : Type} {x : Except Trap α} {a : α}
    {f : α → Except Trap State} {u : StatusWrite} (he : exec i s = s.retire i.length (x >>= f)) (hx : x = .ok a)
    (hf : f a = .ok (s.writeStatus u)) : s.completesRegs i s.regs u :=
  State.completesRegs_of_status (exec_of_effect he ((bind_of_ok hx).trans hf))

/-- Settles O33: TEST reads LeftSRC and ends with the flags of R54. -/
theorem testWritesFlagsOnly : Obligations.TestWritesFlagsOnly := by
  intro s p f h
  exact State.completesRegs_of_read rfl (State.readRM_ok h) rfl

/-! ## BT in place -/

/-- BT r/m,r completes with the bit that it selects, when selecting it changes nothing (R285). -/
theorem State.completesRegs_of_bitAt {s : State} {p : Prefixes} {rm : RM} {r : Reg} {b : Bool}
    (h : s.bitAt p rm p.opSize (s.reg r p.opSize) = .ok (b, s)) :
    s.completesRegs (.btRmR p rm r) s.regs (btFlags b) :=
  State.completesRegs_of_read (x := s.bitAt p rm p.opSize (s.reg r p.opSize)) rfl h rfl

/-- The bit that BT selects in a register (R285). -/
theorem State.bitAt_reg (s : State) (p : Prefixes) (b : Reg) {w : Width} (off : BitVec w.bits) :
    s.bitAt p (.reg b) w off = .ok ((s.reg b w).getLsbD (off.toNat % w.bits), s) := rfl

/-- Settles O34: a register base answers its bit at once; with an immediate offset the operand is read first. -/
theorem bitTestInPlace : Obligations.BitTestInPlace := by
  intro s p b r rm imm
  refine ⟨?_, fun h => ?_⟩
  · exact State.completesRegs_of_bitAt (State.bitAt_reg s p b _)
  · exact State.completesRegs_of_read rfl (State.readRM_ok h) rfl

/-! ## BT on a bit string in memory -/

/-- Byte `j` of an operand in memory is the byte at its address plus `j` (R84). -/
theorem Memory.extractLsb'_read (m : Memory) (a : Nat) {w : Width} {j : Nat} (hj : j < w.bytes) :
    (m.read a w).extractLsb' (8 * j) 8 = m.get (a + j) := by
  apply BitVec.eq_of_toNat_eq
  have h0 := (m.get a).isLt
  have h1 := (m.get (a + 1)).isLt
  have h2 := (m.get (a + 2)).isLt
  have h3 := (m.get (a + 3)).isLt
  cases w <;> interval_cases j <;>
    simp only [Memory.read, BitVec.extractLsb'_toNat, toNat_append_eq, Nat.shiftRight_eq_div_pow, Nat.add_zero] <;>
    omega

/-- Bit `k` of an operand in memory is bit `k mod 8` of its byte `k / 8` (R84). -/
theorem Memory.getLsbD_read (m : Memory) (a : Nat) {w : Width} {k : Nat} (hk : k < w.bits) :
    (m.read a w).getLsbD k = (m.get (a + k / 8)).getLsbD (k % 8) := by
  have hj : k / 8 < w.bytes := by cases w <;> simp only [Width.bits, Width.bytes] at hk ⊢ <;> omega
  rw [← Memory.extractLsb'_read m a hj, BitVec.getLsbD_extractLsb', decide_eq_true (Nat.mod_lt k (by decide)),
    Bool.true_and, Nat.div_add_mod]

/-- The word or doubleword that holds the bit at a signed offset `o`, and the bit's place in it, against the byte that
holds it and the bit's place there: `o DIVF n` and `o MODF n` with n = 8 * bytes against n = 8 (R89, R285). -/
theorem bitString_split (w : Width) (o : Int) :
    (o.fmod w.bits).toNat < w.bits ∧
    w.bytes * o.fdiv w.bits + ((o.fmod w.bits).toNat / 8 : Nat) = o.fdiv 8 ∧
    (o.fmod w.bits).toNat % 8 = (o.fmod 8).toNat := by
  have hn : (0 : Int) ≤ w.bits := Int.natCast_nonneg _
  rw [Int.fdiv_eq_ediv_of_nonneg o hn, Int.fmod_eq_emod_of_nonneg o hn,
    Int.fdiv_eq_ediv_of_nonneg o (by decide), Int.fmod_eq_emod_of_nonneg o (by decide)]
  cases w <;> simp only [Width.bits, Width.bytes] <;> omega

/-- The offset of the word or doubleword of a bit string that holds the bit at a signed offset, as an exact integer
(R285, log entry 23). -/
def State.bitStringOffset (s : State) (m : Mem) (w : Width) (o : Int) : Int :=
  (s.addr m).toNat + w.bytes * o.fdiv w.bits

/-- A word or doubleword of a bit string in plain memory is read like an operand at its offset. -/
theorem State.bitString_ok {s : State} {p : Prefixes} {m : Mem} {w : Width} {o : Int}
    (h0 : 0 ≤ s.bitStringOffset m w o) (h : s.reachesAt (m.seg p) (s.bitStringOffset m w o).toNat w.bytes) :
    s.bitString p m w o = .ok (s.mem.read (s.linear (m.seg p) (s.bitStringOffset m w o).toNat) w, s) :=
  (if_neg h0.not_gt).trans (State.memRead_ok h)

/-- A word or doubleword of a bit string that lies outside the segment traps (U15). -/
theorem State.bitString_outside {s : State} {p : Prefixes} {m : Mem} {w : Width} {o : Int}
    (h : s.bitStringOffset m w o < 0 ∨ 0x10000 < s.bitStringOffset m w o + w.bytes) :
    s.bitString p m w o = .error (.exc 13) := by
  by_cases below : s.bitStringOffset m w o < 0
  · exact if_pos below
  · exact (if_neg below).trans (State.memRead_past (show 0x10000 < (s.bitStringOffset m w o).toNat + _ by omega))

/-- The linear address of the byte that holds the bit at a signed offset, counted from the word or doubleword that
holds it. -/
theorem State.linear_bitStringOffset {s : State} {sr : SReg} {m : Mem} {w : Width} {o : Int}
    (h0 : 0 ≤ s.bitStringOffset m w o) :
    s.linear sr (s.bitStringOffset m w o).toNat + (o.fmod w.bits).toNat / 8 =
      s.linear sr ((s.addr m).toNat + o.fdiv 8 : Int).toNat := by
  obtain ⟨-, byte, -⟩ := bitString_split w o
  rw [← byte]
  simp only [State.linear, State.bitStringOffset] at h0 ⊢
  omega

/-- The bit that BT selects in a bit string in plain memory, as a bit of the byte that holds it (R285). -/
theorem State.bitAt_mem {s : State} {p : Prefixes} {m : Mem} {w : Width} {off : BitVec w.bits}
    (h0 : 0 ≤ s.bitStringOffset m w off.toInt)
    (h : s.reachesAt (m.seg p) (s.bitStringOffset m w off.toInt).toNat w.bytes) :
    s.bitAt p (.mem m) w off =
      .ok ((s.mem.get (s.linear (m.seg p) ((s.addr m).toNat + off.toInt.fdiv 8 : Int).toNat)).getLsbD
        (off.toInt.fmod 8).toNat, s) := by
  obtain ⟨inside, -, bit⟩ := bitString_split w off.toInt
  refine (bind_of_ok (State.bitString_ok h0 h)).trans (congrArg (fun b => Except.ok (b, s)) ?_)
  rw [Memory.getLsbD_read _ _ inside, State.linear_bitStringOffset h0, bit]

/-- Settles O35: by `State.bitAt_mem` inside the segment and `State.bitString_outside` outside it. -/
theorem bitTestInMemory : Obligations.BitTestInMemory := by
  intro s p m r o a byte
  refine ⟨fun ha h => ?_, fun h => ?_⟩
  · exact State.completesRegs_of_bitAt (State.bitAt_mem ha h)
  · exact State.raises.of_first (bind_of_error (State.bitString_outside h)) rfl

end Sys2Proof.Machine
end

section
/-!
PROOFS. Shifts and rotates (R300 to R309): COUNT one-bit steps are one shift or rotation of the bit vector, with the
flags of R304 and R309; the instructions complete when their operand can be reached.
-/

namespace Sys2Proof.Machine

/-! ## Rotations of a bit vector -/

theorem getLsbD_lowBit {n : Nat} (b : Bool) (i : Nat) :
    (lowBit b : BitVec n).getLsbD i = (decide (i < n) && (decide (i = 0) && b)) := by
  rw [lowBit, BitVec.getLsbD_setWidth, BitVec.getLsbD_ofBool]

theorem getLsbD_highBit {n : Nat} (b : Bool) (i : Nat) :
    (highBit b : BitVec n).getLsbD i = (decide (i < n) && (decide (i = n - 1) && b)) := by
  rw [highBit, BitVec.getLsbD_shiftLeft, getLsbD_lowBit]
  by_cases hi : i < n
  · by_cases top : i = n - 1
    · simp [top, show 0 < n by omega]
    · simp [top, show i < n - 1 by omega]
  · simp [hi]

/-- Two rotations to the left are one, by the sum. -/
theorem rotateLeft_add {n : Nat} (x : BitVec n) (j k : Nat) :
    x.rotateLeft (j + k) = (x.rotateLeft j).rotateLeft k := by
  refine BitVec.eq_of_getMsbD_eq fun i hi => ?_
  have inside : (k + i) % n < n := Nat.mod_lt _ (by omega)
  simp only [BitVec.getMsbD_rotateLeft, inside, decide_true, Bool.true_and, Nat.add_mod_mod, Nat.add_assoc]

/-- A bit of a rotation to the right, its place taken modulo the width. -/
theorem getLsbD_rotateRight_mod {n : Nat} (x : BitVec n) (k i : Nat) :
    (x.rotateRight k).getLsbD i = (decide (i < n) && x.getLsbD ((k + i) % n)) := by
  rw [BitVec.getLsbD_rotateRight, ← Nat.mod_add_mod]
  by_cases hi : i < n
  · have hk : k % n < n := Nat.mod_lt _ (by omega)
    generalize k % n = m at hk ⊢
    by_cases stays : i < n - m
    · simp only [stays, hi, cond_true, decide_true, Bool.true_and, Nat.mod_eq_of_lt (show m + i < n by omega)]
    · have wraps : (m + i) % n = i - (n - m) := by
        rw [Nat.mod_eq_sub_mod (by omega), Nat.mod_eq_of_lt (by omega)]; omega
      simp only [stays, decide_false, cond_false, wraps]
  · simp only [hi, show ¬ i < n - k % n by omega, decide_false, Bool.false_and, cond_false]

/-- Two rotations to the right are one, by the sum. -/
theorem rotateRight_add {n : Nat} (x : BitVec n) (j k : Nat) :
    x.rotateRight (j + k) = (x.rotateRight j).rotateRight k := by
  refine BitVec.eq_of_getLsbD_eq fun i hi => ?_
  have inside : (k + i) % n < n := Nat.mod_lt _ (by omega)
  simp only [getLsbD_rotateRight_mod, inside, decide_true, Bool.true_and, Nat.add_mod_mod, Nat.add_assoc]

theorem rotateLeft_zero {n : Nat} (x : BitVec n) : x.rotateLeft 0 = x := by
  refine BitVec.eq_of_getMsbD_eq fun i hi => ?_
  simp only [BitVec.getMsbD_rotateLeft, hi, decide_true, Bool.true_and, Nat.zero_add, Nat.mod_eq_of_lt hi]

theorem rotateRight_zero {n : Nat} (x : BitVec n) : x.rotateRight 0 = x := by
  refine BitVec.eq_of_getLsbD_eq fun i hi => ?_
  simp only [getLsbD_rotateRight_mod, hi, decide_true, Bool.true_and, Nat.zero_add, Nat.mod_eq_of_lt hi]

/-- A rotation by the width restores the bit vector. -/
theorem rotateLeft_width {n : Nat} (x : BitVec n) : x.rotateLeft n = x := by
  rw [← BitVec.rotateLeft_mod_eq_rotateLeft, Nat.mod_self, rotateLeft_zero]

theorem rotateRight_width {n : Nat} (x : BitVec n) : x.rotateRight n = x := by
  rw [← BitVec.rotateRight_mod_eq_rotateRight, Nat.mod_self, rotateRight_zero]

/-- The result of a step of ROL (R305). -/
theorem shiftLeft_or_msb {n : Nat} (hn : 1 < n) (x : BitVec n) :
    x <<< 1 ||| lowBit x.msb = x.rotateLeft 1 := by
  refine BitVec.eq_of_getLsbD_eq fun i hi => ?_
  simp only [BitVec.getLsbD_rotateLeft, Nat.mod_eq_of_lt hn, BitVec.getLsbD_or, BitVec.getLsbD_shiftLeft,
    getLsbD_lowBit, BitVec.msb_eq_getLsbD_last]
  cases i with
  | zero => simp [hi]
  | succ i => simp [hi]

/-- The result of a step of ROR (R306). -/
theorem ushiftRight_or_lsb {n : Nat} (hn : 1 < n) (x : BitVec n) :
    x >>> 1 ||| highBit (x.getLsbD 0) = x.rotateRight 1 := by
  refine BitVec.eq_of_getLsbD_eq fun i hi => ?_
  simp only [BitVec.getLsbD_rotateRight, Nat.mod_eq_of_lt hn, BitVec.getLsbD_or, BitVec.getLsbD_ushiftRight,
    getLsbD_highBit]
  by_cases top : i = n - 1
  · simp [top, show 1 + (n - 1) = n by omega, show n - 1 < n by omega]
  · simp [top, show i < n - 1 by omega]

/-- A step of RCL: CF and the operand below it rotate to the left (R307). -/
theorem cons_rclStep {n : Nat} (hn : 0 < n) (c : CarryAnd n) :
    BitVec.cons (rclStep c).cf (rclStep c).x = (BitVec.cons c.cf c.x).rotateLeft 1 := by
  refine BitVec.eq_of_getLsbD_eq fun i hi => ?_
  simp only [rclStep, BitVec.getLsbD_rotateLeft, Nat.mod_eq_of_lt (show 1 < n + 1 by omega), BitVec.getLsbD_cons,
    BitVec.getLsbD_or, BitVec.getLsbD_shiftLeft, getLsbD_lowBit, BitVec.msb_eq_getLsbD_last]
  cases i with
  | zero => simp [hn, hn.ne]
  | succ i =>
    obtain rfl | inner : i + 1 = n ∨ i + 1 < n := by omega
    · simp
    · simp [inner, inner.ne, Nat.lt_of_succ_lt inner, (Nat.lt_of_succ_lt inner).ne]

/-- A step of RCR: CF and the operand below it rotate to the right (R308). -/
theorem cons_rcrStep {n : Nat} (hn : 0 < n) (c : CarryAnd n) :
    BitVec.cons (rcrStep c).cf (rcrStep c).x = (BitVec.cons c.cf c.x).rotateRight 1 := by
  refine BitVec.eq_of_getLsbD_eq fun i hi => ?_
  simp only [rcrStep, BitVec.getLsbD_rotateRight, Nat.mod_eq_of_lt (show 1 < n + 1 by omega), BitVec.getLsbD_cons,
    BitVec.getLsbD_or, BitVec.getLsbD_ushiftRight, getLsbD_highBit]
  rw [Nat.add_comm 1 i, Nat.add_sub_cancel]
  obtain rfl | below := Nat.eq_or_lt_of_le (Nat.le_of_lt_succ hi)
  · simp [hn.ne]
  · obtain rfl | inner := Nat.eq_or_lt_of_le (Nat.succ_le_of_lt below)
    · simp
    · simp [below, below.ne, inner.ne, show i ≠ n - 1 by omega]

/-! ## COUNT steps -/

/-- The last step of a repetition. -/
theorem repeatStep_succ {n : Nat} (step : CarryAnd n → CarryAnd n) (k : Nat) (c : CarryAnd n) :
    repeatStep step (k + 1) c = step (repeatStep step k c) := by
  induction k generalizing c with
  | zero => rfl
  | succ k ih => exact ih (step c)

/-- What is seen of a repetition is `f k` when each step takes `f k` to `f (k + 1)`. -/
theorem repeatStep_view {n : Nat} {α : Type} (view : CarryAnd n → α) (f : Nat → α)
    {step : CarryAnd n → CarryAnd n} {c : CarryAnd n} (zero : view c = f 0)
    (succ : ∀ k d, view d = f k → view (step d) = f (k + 1)) (k : Nat) :
    view (repeatStep step k c) = f k := by
  induction k with
  | zero => exact zero
  | succ k ih => rw [repeatStep_succ]; exact succ k _ ih

theorem repeatStep_salStep_x {n : Nat} (k : Nat) (c : CarryAnd n) : (repeatStep salStep k c).x = c.x <<< k :=
  repeatStep_view CarryAnd.x (fun k => c.x <<< k) (BitVec.shiftLeft_zero _).symm
    (fun k d h => by rw [salStep, h, BitVec.shiftLeft_add]) k

theorem repeatStep_shrStep_x {n : Nat} (k : Nat) (c : CarryAnd n) : (repeatStep shrStep k c).x = c.x >>> k :=
  repeatStep_view CarryAnd.x (fun k => c.x >>> k) (BitVec.ushiftRight_zero _).symm
    (fun k d h => by rw [shrStep, h, BitVec.shiftRight_add]) k

theorem repeatStep_sarStep_x {n : Nat} (k : Nat) (c : CarryAnd n) :
    (repeatStep sarStep k c).x = c.x.sshiftRight k :=
  repeatStep_view CarryAnd.x c.x.sshiftRight BitVec.sshiftRight_zero.symm
    (fun k d h => by rw [sarStep, h, BitVec.sshiftRight_add]) k

theorem repeatStep_rolStep_x {n : Nat} (hn : 1 < n) (k : Nat) (c : CarryAnd n) :
    (repeatStep rolStep k c).x = c.x.rotateLeft k :=
  repeatStep_view CarryAnd.x c.x.rotateLeft (rotateLeft_zero _).symm
    (fun k d h => by rw [rolStep, shiftLeft_or_msb hn, h, rotateLeft_add]) k

theorem repeatStep_rorStep_x {n : Nat} (hn : 1 < n) (k : Nat) (c : CarryAnd n) :
    (repeatStep rorStep k c).x = c.x.rotateRight k :=
  repeatStep_view CarryAnd.x c.x.rotateRight (rotateRight_zero _).symm
    (fun k d h => by rw [rorStep, ushiftRight_or_lsb hn, h, rotateRight_add]) k

/-- COUNT steps of RCL rotate CF and the operand below it to the left (R307). -/
theorem cons_repeatStep_rclStep {n : Nat} (hn : 0 < n) (k : Nat) (c : CarryAnd n) :
    BitVec.cons (repeatStep rclStep k c).cf (repeatStep rclStep k c).x = (BitVec.cons c.cf c.x).rotateLeft k :=
  repeatStep_view (fun d => BitVec.cons d.cf d.x) (BitVec.cons c.cf c.x).rotateLeft (rotateLeft_zero _).symm
    (fun k d h => by rw [cons_rclStep hn, h, rotateLeft_add]) k

/-- COUNT steps of RCR rotate CF and the operand below it to the right (R308). -/
theorem cons_repeatStep_rcrStep {n : Nat} (hn : 0 < n) (k : Nat) (c : CarryAnd n) :
    BitVec.cons (repeatStep rcrStep k c).cf (repeatStep rcrStep k c).x = (BitVec.cons c.cf c.x).rotateRight k :=
  repeatStep_view (fun d => BitVec.cons d.cf d.x) (BitVec.cons c.cf c.x).rotateRight (rotateRight_zero _).symm
    (fun k d h => by rw [cons_rcrStep hn, h, rotateRight_add]) k

/-! ## The last bit shifted out -/

theorem repeatStep_salStep_cf {n : Nat} (k : Nat) (c : CarryAnd n) :
    (repeatStep salStep (k + 1) c).cf = (decide (k + 1 ≤ n) && c.x.getLsbD (n - (k + 1))) := by
  rw [repeatStep_succ, salStep, repeatStep_salStep_x, BitVec.msb_shiftLeft, BitVec.getMsbD, Nat.sub_sub,
    Nat.add_comm 1 k]
  rfl

theorem repeatStep_shrStep_cf {n : Nat} (k : Nat) (c : CarryAnd n) :
    (repeatStep shrStep (k + 1) c).cf = c.x.getLsbD k := by
  rw [repeatStep_succ, shrStep, repeatStep_shrStep_x, BitVec.getLsbD_ushiftRight, Nat.add_zero]

theorem repeatStep_sarStep_cf {n : Nat} (hn : 0 < n) (k : Nat) (c : CarryAnd n) :
    (repeatStep sarStep (k + 1) c).cf = if k + 1 < n then c.x.getLsbD k else c.x.msb := by
  rw [repeatStep_succ, sarStep, repeatStep_sarStep_x, BitVec.getLsbD_sshiftRight, Nat.add_zero,
    decide_eq_false hn.not_ge, Bool.not_false, Bool.true_and]
  obtain inner | rfl | out : k + 1 < n ∨ k + 1 = n ∨ n ≤ k := by omega
  · rw [if_pos (Nat.lt_of_succ_lt inner), if_pos inner]
  · rw [if_pos k.lt_succ_self, if_neg (Nat.lt_irrefl _), BitVec.msb_eq_getLsbD_last, Nat.add_sub_cancel]
  · rw [if_neg out.not_gt, if_neg (by omega)]

/-! ## The flags of R304 and R309 -/

/-- The row of R304 when COUNT is not 0. -/
theorem shiftFlags_of_pos {n k : Nat} (hk : 0 < k) (cf of1 : Bool) (r : BitVec n) :
    shiftFlags k cf of1 r = ⟨if k = 1 then .put of1 else .undef, .put r.msb, .put (decide (r = 0)), .undef,
      .put (parity r), .put cf⟩ :=
  if_neg hk.ne'

/-- The row of R309 when COUNT is not 0. -/
theorem rotateFlags_of_pos {k : Nat} (hk : 0 < k) (cf of1 : Bool) :
    rotateFlags k cf of1 = ⟨if k = 1 then .put of1 else .undef, .keep, .keep, .keep, .keep, .put cf⟩ :=
  if_neg hk.ne'

theorem shiftFlags_cf {n k : Nat} (hk : 0 < k) (cf of1 : Bool) (r : BitVec n) :
    (shiftFlags k cf of1 r).cf = .put cf := by
  rw [shiftFlags_of_pos hk]

theorem rotateFlags_cf {k : Nat} (hk : 0 < k) (cf of1 : Bool) : (rotateFlags k cf of1).cf = .put cf := by
  rw [rotateFlags_of_pos hk]

/-! ## The closed forms -/

/-- Settles O36: each result and each last bit by the lemmas of the repeated step. -/
theorem shiftClosedForms : Obligations.ShiftClosedForms := by
  intro w k c x hk
  obtain ⟨j, rfl⟩ := Nat.exists_eq_add_one_of_ne_zero hk.ne'
  have hn : 0 < w.bits := Nat.zero_lt_of_lt (Width.one_lt_bits w)
  refine ⟨repeatStep_salStep_x _ _, ?_, repeatStep_shrStep_x _ _, ?_, repeatStep_sarStep_x _ _, ?_⟩
  · exact (shiftFlags_cf hk _ _ _).trans (congrArg _ (repeatStep_salStep_cf j _))
  · exact (shiftFlags_cf hk _ _ _).trans (congrArg _ (repeatStep_shrStep_cf j _))
  · exact (shiftFlags_cf hk _ _ _).trans (congrArg _ (repeatStep_sarStep_cf hn j _))

theorem rolBy_cf {n k : Nat} (hn : 1 < n) (hk : 0 < k) (c : CarryAnd n) :
    (rolBy k c).2.cf = .put ((c.x.rotateLeft k).getLsbD 0) := by
  rw [rolBy, rotateFlags_cf hk, repeatStep_rolStep_x hn]

theorem rorBy_cf {n k : Nat} (hn : 1 < n) (hk : 0 < k) (c : CarryAnd n) :
    (rorBy k c).2.cf = .put (c.x.rotateRight k).msb := by
  rw [rorBy, rotateFlags_cf hk, repeatStep_rorStep_x hn]

theorem rclBy_fst {n : Nat} (hn : 0 < n) (k : Nat) (c : CarryAnd n) :
    (rclBy k c).1 = ((BitVec.cons c.cf c.x).rotateLeft k).setWidth n := by
  rw [rclBy, ← cons_repeatStep_rclStep hn, BitVec.setWidth_cons]

theorem rcrBy_fst {n : Nat} (hn : 0 < n) (k : Nat) (c : CarryAnd n) :
    (rcrBy k c).1 = ((BitVec.cons c.cf c.x).rotateRight k).setWidth n := by
  rw [rcrBy, ← cons_repeatStep_rcrStep hn, BitVec.setWidth_cons]

theorem rclBy_cf {n k : Nat} (hn : 0 < n) (hk : 0 < k) (c : CarryAnd n) :
    (rclBy k c).2.cf = .put ((BitVec.cons c.cf c.x).rotateLeft k).msb := by
  rw [rclBy, rotateFlags_cf hk, ← cons_repeatStep_rclStep hn, BitVec.msb_cons]

theorem rcrBy_cf {n k : Nat} (hn : 0 < n) (hk : 0 < k) (c : CarryAnd n) :
    (rcrBy k c).2.cf = .put ((BitVec.cons c.cf c.x).rotateRight k).msb := by
  rw [rcrBy, rotateFlags_cf hk, ← cons_repeatStep_rcrStep hn, BitVec.msb_cons]

/-- Settles O37: RCL and RCR are the rotations of `BitVec.cons c x`, which its own width restores. -/
theorem rotateClosedForms : Obligations.RotateClosedForms := by
  intro w k c x y
  have hn : 1 < w.bits := Width.one_lt_bits w
  have hn0 : 0 < w.bits := Nat.zero_lt_of_lt hn
  refine ⟨repeatStep_rolStep_x hn k _, repeatStep_rorStep_x hn k _,
    fun hk => ⟨rolBy_cf hn hk _, rorBy_cf hn hk _⟩, rclBy_fst hn0 k _, rcrBy_fst hn0 k _,
    fun hk => ⟨rclBy_cf hn0 hk _, rcrBy_cf hn0 hk _⟩, ?_, ?_, ?_, ?_⟩
  · rw [rclBy_fst hn0, rotateLeft_width, BitVec.setWidth_cons]
  · rw [rclBy_cf hn0 (Nat.succ_pos _), rotateLeft_width, BitVec.msb_cons]
  · rw [rcrBy_fst hn0, rotateRight_width, BitVec.setWidth_cons]
  · rw [rcrBy_cf hn0 (Nat.succ_pos _), rotateRight_width, BitVec.msb_cons]

/-! ## OF -/

/-- The top bit after one step to the left is the one that was below it. -/
theorem msb_shiftLeft_one {n : Nat} (hn : 1 < n) (x : BitVec n) : (x <<< 1).msb = x.getLsbD (n - 2) := by
  rw [BitVec.msb_shiftLeft, BitVec.getMsbD, decide_eq_true hn, Bool.true_and, Nat.sub_sub]

/-- The bit below the top after one step to the right was the top bit, whatever entered. -/
theorem getLsbD_ushiftRight_or_highBit {n : Nat} (hn : 1 < n) (x : BitVec n) (b : Bool) :
    (x >>> 1 ||| highBit b).getLsbD (n - 2) = x.msb := by
  rw [BitVec.getLsbD_or, BitVec.getLsbD_ushiftRight, getLsbD_highBit, decide_eq_false (show n - 2 ≠ n - 1 by omega),
    Bool.false_and, Bool.and_false, Bool.or_false, show 1 + (n - 2) = n - 1 by omega, BitVec.msb_eq_getLsbD_last]

/-- The low bit after one step of ROL was the top bit. -/
theorem getLsbD_rolStep_zero {n : Nat} (hn : 0 < n) (c : CarryAnd n) : (rolStep c).x.getLsbD 0 = c.x.msb := by
  rw [rolStep, BitVec.getLsbD_or, BitVec.getLsbD_shiftLeft, getLsbD_lowBit]
  simp [hn]

/-- The flags of a shift, with OF known for COUNT = 1 (R304). -/
theorem shiftFlags_fields {n k : Nat} (hk : 0 < k) {cf of1 o : Bool} {r : BitVec n} (h : k = 1 → of1 = o) :
    (shiftFlags k cf of1 r).sf = .put r.msb ∧ (shiftFlags k cf of1 r).zf = .put (decide (r = 0)) ∧
    (shiftFlags k cf of1 r).pf = .put (parity r) ∧ (shiftFlags k cf of1 r).af = .undef ∧
    (shiftFlags k cf of1 r).ovf = if k = 1 then .put o else .undef := by
  rw [shiftFlags_of_pos hk]
  exact ⟨rfl, rfl, rfl, rfl, ite_congr rfl (fun h1 => congrArg _ (h h1)) fun _ => rfl⟩

/-- The flags of a rotate, with OF known for COUNT = 1 (R309). -/
theorem rotateFlags_fields {k : Nat} (hk : 0 < k) {cf of1 o : Bool} (h : k = 1 → of1 = o) :
    (rotateFlags k cf of1).sf = .keep ∧ (rotateFlags k cf of1).zf = .keep ∧ (rotateFlags k cf of1).pf = .keep ∧
    (rotateFlags k cf of1).af = .keep ∧ (rotateFlags k cf of1).ovf = if k = 1 then .put o else .undef := by
  rw [rotateFlags_of_pos hk]
  exact ⟨rfl, rfl, rfl, rfl, ite_congr rfl (fun h1 => congrArg _ (h h1)) fun _ => rfl⟩

/-- Settles O39: the rows of R304 and R309, with the OF of one step of each kind. -/
theorem shiftFlagsByCount : Obligations.ShiftFlagsByCount := by
  intro w k c x hk shifts rotates
  have hn : 1 < w.bits := Width.one_lt_bits w
  simp only [shifts, rotates, List.forall_mem_cons, List.not_mem_nil, false_implies, implies_true, and_true]
  refine ⟨⟨shiftFlags_fields hk ?sal, shiftFlags_fields hk fun _ => rfl, shiftFlags_fields hk fun _ => rfl⟩,
    rotateFlags_fields hk ?rol, rotateFlags_fields hk ?ror, rotateFlags_fields hk ?rcl, rotateFlags_fields hk ?rcr⟩
  case sal =>
    rintro rfl
    exact (congrArg (· ^^ x.msb) (msb_shiftLeft_one hn x)).trans (Bool.xor_comm _ _)
  case rol =>
    rintro rfl
    exact congrArg _ (getLsbD_rolStep_zero (Nat.zero_lt_of_lt hn) ⟨c, x⟩)
  case ror =>
    rintro rfl
    exact congrArg _ (getLsbD_ushiftRight_or_highBit hn x _)
  case rcl =>
    rintro rfl
    rfl
  case rcr =>
    rintro rfl
    exact congrArg _ (getLsbD_ushiftRight_or_highBit hn x _)

/-! ## The instructions -/

/-- A shift or rotate whose operand can be reached writes its flags, and its result unless COUNT is 0. -/
theorem State.shiftOp_ok {s : State} {p : Prefixes} {w : Width} {rm : RM} (h : s.reaches p rm w) (n : Count)
    (g : Nat → CarryAnd w.bits → BitVec w.bits × StatusWrite) :
    s.shiftOp p w rm n g =
      if s.count n = 0 then .ok (s.writeStatus (g (s.count n) ⟨s.flags.cf, s.operand p rm w⟩).2)
      else s.writeRM (s.writeStatus (g (s.count n) ⟨s.flags.cf, s.operand p rm w⟩).2) p rm w
        (g (s.count n) ⟨s.flags.cf, s.operand p rm w⟩).1 :=
  bind_of_ok (State.readRM_ok h)

/-- An instruction that is a shift or rotate completes; `zero` is the row of its flags for COUNT = 0. -/
theorem State.completes_of_shiftOp {s : State} {i : Instr} {rm : RM} {w : Width} {n : Count}
    {g : Nat → CarryAnd w.bits → BitVec w.bits × StatusWrite} {zero : StatusWrite} (hwf : s.mem.wf = true)
    (h : s.reaches i.prefixes rm w) (he : exec i s = s.retire i.length (s.shiftOp i.prefixes w rm n g))
    (hz : ∀ c, (g 0 c).2 = zero) :
    if s.count n = 0 then s.completesRegs i s.regs zero
    else s.completesWith i rm w (g (s.count n) ⟨s.flags.cf, s.operand i.prefixes rm w⟩).1
      (g (s.count n) ⟨s.flags.cf, s.operand i.prefixes rm w⟩).2 := by
  rw [State.shiftOp_ok h] at he
  split
  · next h0 =>
    rw [if_pos h0, h0, hz] at he
    exact State.completesRegs_of_status he
  · next h0 =>
    rw [if_neg h0] at he
    exact State.completesWith_of_put hwf h he

/-- Settles O38: each mnemonic is `State.shiftOp` with its own iterated form and row for COUNT = 0. -/
theorem shiftsComplete : Obligations.ShiftsComplete := by
  intro s p w rm n hwf h x k done freeAll freeOf
  have hk : k = s.count n := by cases n <;> rfl
  simp only [done, hk]
  refine ⟨?_, ?_, ?_, ?_, ?_, ?_, ?_, ?_⟩
  · exact State.completes_of_shiftOp (i := .sal p w rm n) hwf h rfl fun _ => rfl
  · exact State.completes_of_shiftOp (i := .shl p w rm n) hwf h rfl fun _ => rfl
  · exact State.completes_of_shiftOp (i := .shr p w rm n) hwf h rfl fun _ => rfl
  · exact State.completes_of_shiftOp (i := .sar p w rm n) hwf h rfl fun _ => rfl
  · exact State.completes_of_shiftOp (i := .rol p w rm n) hwf h rfl fun _ => rfl
  · exact State.completes_of_shiftOp (i := .ror p w rm n) hwf h rfl fun _ => rfl
  · exact State.completes_of_shiftOp (i := .rcl p w rm n) hwf h rfl fun _ => rfl
  · exact State.completes_of_shiftOp (i := .rcr p w rm n) hwf h rfl fun _ => rfl

end Sys2Proof.Machine
end

section
/-!
PROOFS. The conditions of R320 and what they compare after CMP (R250).
-/

namespace Sys2Proof.Machine

/-- SF differs from OF after a subtraction exactly when the exact difference is negative: a difference that
overflows has the wrong sign (R53). -/
theorem sub_sign_ne_overflow {n : Nat} (hn : 0 < n) (a b : BitVec n) (c : Bool) :
    ((subResult a b c).msb != outOfRange n (a.toInt - b.toInt - c.toNat)) =
      decide (a.toInt - b.toInt - c.toNat < 0) := by
  have hc := c.toNat_le
  have ha := a.le_toInt
  have ha' := a.toInt_lt
  have hb := b.le_toInt
  have hb' := b.toInt_lt
  have hz : (2 : Int) ^ (n - 1) = (2 ^ (n - 1) : Nat) := by push_cast; rfl
  rw [Bool.eq_iff_iff]
  simp only [bne_iff_ne, ne_eq, outOfRange, ← Bool.decide_or, BitVec.msb_eq_toInt, decide_eq_decide,
    decide_eq_true_eq, toInt_subResult, ← Nat.two_pow_pred_mul_two hn, hz] at *
  generalize 2 ^ (n - 1) = h at *
  rcases bmod_cases (h := h) (x := a.toInt - b.toInt - c.toNat) (by omega) (by omega) with
    ⟨h1, h2, e⟩ | ⟨h1, e⟩ | ⟨h1, e⟩ <;> rw [e] <;> omega

/-- A difference is 0 exactly when the operands are equal. -/
theorem subResult_eq_zero_iff {n : Nat} (a b : BitVec n) : subResult a b false = 0 ↔ a = b := by
  rw [subResult_eq]
  simp [BitVec.sub_eq_iff_eq_add]

/-- The flags after CMP as comparisons of its operands: CF of the unsigned order, ZF of equality, and SF against
OF of the signed order. -/
theorem flags_of_compare {w : Width} {a b : BitVec w.bits} {f g : EFlags}
    (h : (subFlags a b false).allows f g) :
    (g.cf = true ↔ a.toNat < b.toNat) ∧ (g.zf = true ↔ a = b) ∧ ((g.sf != g.ovf) = true ↔ a.toInt < b.toInt) := by
  obtain ⟨hovf, hsf, hzf, -, -, hcf, -⟩ := h
  have hn := Nat.zero_lt_of_lt (Width.one_lt_bits w)
  have ovf : g.ovf = outOfRange w.bits (a.toInt - b.toInt - false.toNat) := hovf
  have sf : g.sf = (subResult a b false).msb := hsf
  have zf : g.zf = decide (subResult a b false = 0) := hzf
  have cf : g.cf = decide ((a.toNat : Int) - b.toNat - false.toNat < 0) := hcf
  refine ⟨?_, ?_, ?_⟩
  · rw [cf, decide_eq_true_eq, Bool.toNat_false]
    omega
  · rw [zf, decide_eq_true_eq, subResult_eq_zero_iff]
  · rw [sf, ovf, sub_sign_ne_overflow hn, decide_eq_true_eq, Bool.toNat_false]
    omega

/-- Settles O19: every condition is a combination of the three comparisons of `flags_of_compare`. -/
theorem conditionsCompare : Obligations.ConditionsCompare := by
  refine ⟨fun g => ⟨⟨rfl, rfl, rfl, rfl⟩, ⟨rfl, rfl, rfl, rfl⟩, ⟨rfl, rfl, rfl, rfl⟩, rfl, rfl, rfl, rfl⟩,
    fun w a b f g h => ?_⟩
  obtain ⟨below, equal, less⟩ := flags_of_compare h
  have equalNat : a = b ↔ a.toNat = b.toNat := BitVec.toNat_inj.symm
  have equalInt : a = b ↔ a.toInt = b.toInt := BitVec.toInt_inj.symm
  have notLess : (g.sf == g.ovf) = !(g.sf != g.ovf) := (Bool.not_not _).symm
  simp only [Cond.holds, notLess, Bool.or_eq_true, Bool.and_eq_true, Bool.not_eq_true', ← Bool.not_eq_true,
    below, equal, less, true_and, and_true]
  refine ⟨?_, ?_, ?_, ?_, ?_, ?_⟩
  · exact Nat.not_lt
  · rw [equalNat]; omega
  · rw [equalNat]; omega
  · exact Int.not_lt
  · rw [equalInt]; omega
  · rw [equalInt]; omega

end Sys2Proof.Machine
end

section
/-!
PROOFS. Control transfer (R320 to R338): the jumps, CALL, RET and IRET complete when their target and their words on
the stack can be reached, and a return undoes its call.
-/

namespace Sys2Proof.Machine

/-! ## Jumps -/

/-- The low half of a doubleword kept, the high half cleared. -/
theorem and_0xFFFF (x : Dword) : x &&& 0xFFFF = (x.setWidth 16).setWidth 32 := by
  apply BitVec.eq_of_toNat_eq
  rw [BitVec.toNat_and, BitVec.toNat_setWidth, BitVec.toNat_setWidth,
    show (0xFFFF : Dword).toNat = 2 ^ 16 - 1 from rfl, Nat.and_two_pow_sub_one_eq_mod]
  omega

/-- The target of a relative transfer (R321). -/
theorem State.target_eq (s : State) (len : Nat) (t : Rel) :
    s.target len t = ((s.eip + BitVec.ofNat 32 len + t.value).setWidth 16).setWidth 32 :=
  and_0xFFFF _

/-- A control transfer whose effect writes registers and CS and jumps completes. -/
theorem State.transfersTo_of_jump {s : State} {i : Instr} {r : Except Trap State} {g : Regs} {cs : Word} {off : Dword}
    (he : exec i s = s.retireJump r)
    (hr : r = .ok (({ s with regs := g, segs := { s.segs with cs := cs } } : State).jump off)) :
    s.transfersTo i g cs off :=
  ⟨_, he.trans (congrArg s.retireJump hr), rfl, rfl, rfl, rfl, rfl, rfl, State.sameControl_refl s⟩

/-- A conditional jump transfers control when its condition holds and goes on when it does not (R322, R323). -/
theorem State.completes_of_branch {s : State} {i : Instr} {c : Cond} {t : Rel}
    (he : exec i s = s.branch c i.length t) :
    if c.holds s.flags then
      s.transfersTo i s.regs s.segs.cs (((s.eip + BitVec.ofNat 32 i.length + t.value).setWidth 16).setWidth 32)
    else s.completesRegs i s.regs keepFlags := by
  rw [State.branch] at he
  split
  · next taken =>
    rw [if_pos taken, State.target_eq] at he
    exact State.transfersTo_of_jump (r := .ok _) he rfl
  · next passed =>
    rw [if_neg passed] at he
    exact State.completesRegs_of_regs he

/-- Settles O49: every one of the thirty names is `State.branch` on its condition. -/
theorem conditionalJumpsComplete : Obligations.ConditionalJumpsComplete := by
  intro s p t goes
  have jump : ∀ {i : Instr} {c : Cond}, exec i s = s.branch c i.length t → goes i c := State.completes_of_branch
  refine ⟨⟨?_, ?_, ?_, ?_, ?_, ?_, ?_, ?_⟩, ⟨?_, ?_, ?_, ?_, ?_, ?_, ?_, ?_⟩, ⟨?_, ?_, ?_, ?_, ?_, ?_, ?_, ?_⟩,
    ?_, ?_, ?_, ?_, ?_, ?_⟩ <;> exact jump rfl

/-- Settles O50: the target is read, where it is in an operand, and then jumped to. -/
theorem jumpsComplete : Obligations.JumpsComplete := by
  intro s p t rm m sel off nextIp a
  refine ⟨?_, fun h => ?_, ?_, fun h => ?_⟩
  · exact State.transfersTo_of_jump rfl (congrArg (fun v => Except.ok (s.jump v)) (State.target_eq s _ t))
  · exact State.transfersTo_of_jump rfl (bind_of_ok (State.readRM_ok h))
  · exact State.transfersTo_of_jump rfl rfl
  · exact State.transfersTo_of_jump rfl (bind_of_ok (State.readFar_ok h))

/-! ## CALL -/

/-- `t` is `s` after a near call to `dest` that pushed `ret` (R329, R330). -/
def State.calledNear (s : State) (ret : Word) (dest : Dword) (t : State) : Prop :=
  t.regs = s.pushedRegs 2 ∧ t.segs = s.segs ∧ t.eip = dest ∧ t.flags = s.flags ∧ s.sameControl t ∧ t.stored = [] ∧
    t.mem.read (s.linear .ss (s.below 2)) .word = ret ∧
    ∀ b, b < s.linear .ss (s.below 2) ∨ s.linear .ss (s.below 2) + 2 ≤ b → t.mem.get b = s.mem.get b

/-- `t` is `s` after a far call to `cs:ip` that pushed CS and `ret` (R331, R332). -/
def State.calledFar (s : State) (ret cs ip : Word) (t : State) : Prop :=
  t.regs = s.pushedRegs 4 ∧ t.segs = { s.segs with cs := cs } ∧ t.eip = ip.setWidth 32 ∧ t.flags = s.flags ∧
    s.sameControl t ∧ t.stored = [] ∧
    t.mem.read (s.linear .ss (s.below 4)) .word = ret ∧ t.mem.read (s.linear .ss (s.below 2)) .word = s.segs.cs ∧
    ∀ b, (∀ k ∈ [2, 4], b < s.linear .ss (s.below k) ∨ s.linear .ss (s.below k) + 2 ≤ b) → t.mem.get b = s.mem.get b

/-- A near call whose push fits. -/
theorem State.callNear_ok {s : State} (hwf : s.mem.wf = true) (h : s.canPush 0 2) (len : Nat) (dest : Dword) :
    ∃ t, s.callNear len dest = .ok t ∧ s.calledNear ((s.nextIp len).extractLsb' 0 16) dest t := by
  obtain ⟨u, push, pushed, top, frame⟩ := State.push_word hwf h ((s.nextIp len).extractLsb' 0 16)
  exact ⟨u.jump dest, bind_of_ok push, pushed.regs, pushed.segs, rfl, pushed.flags, pushed.control, rfl, top, frame⟩

/-- A far call whose pushes fit. -/
theorem State.callFar_ok {s : State} (hwf : s.mem.wf = true) (h : s.canPush 0 2) (h2 : s.canPush 2 2) (len : Nat)
    (sel off : Word) :
    ∃ t, s.callFar len sel off = .ok t ∧ s.calledFar ((s.nextIp len).extractLsb' 0 16) sel off t := by
  have room : s.checkFrame 2 = .ok () := State.checkFrame_ok fun
    | 0, _ => h
    | 1, _ => h2
  obtain ⟨u, u2, push, push2, pushed, selector, top, frame⟩ :=
    State.push_two_words hwf h h2 s.segs.cs ((s.nextIp len).extractLsb' 0 16)
  exact ⟨u2.jumpFar sel off, (bind_of_ok room).trans ((bind_of_ok push).trans (bind_of_ok push2)), pushed.regs,
    congrArg (Segs.set · .cs sel) pushed.segs, rfl, pushed.flags, pushed.control, rfl, top, selector, frame⟩

/-- A control transfer ends in the state that its effect answers. -/
theorem State.next_of_effect {s : State} {i : Instr} {r r' : Except Trap State} {P : State → Prop}
    (he : exec i s = s.retireJump r) (hr : r = r') (h : ∃ t, r' = .ok t ∧ P t) : ∃ t, exec i s = .next t ∧ P t := by
  obtain ⟨t, rfl, ht⟩ := h
  exact ⟨t, he.trans (congrArg s.retireJump hr), ht⟩

/-- CALL rel16 (R329). -/
theorem State.callRel_completes {s : State} (hwf : s.mem.wf = true) (h : s.canPush 0 2) (p : Prefixes) (rel : Word) :
    ∃ t, exec (.callRel p rel) s = .next t ∧
      s.calledNear ((s.nextIp (Instr.callRel p rel).length).extractLsb' 0 16)
        (s.target (Instr.callRel p rel).length (.rel16 rel)) t :=
  State.next_of_effect rfl rfl (State.callNear_ok hwf h _ _)

/-- CALL ptr16:16 (R331). -/
theorem State.callPtr_completes {s : State} (hwf : s.mem.wf = true) (h : s.canPush 0 2) (h2 : s.canPush 2 2)
    (p : Prefixes) (sel off : Word) :
    ∃ t, exec (.callPtr p sel off) s = .next t ∧
      s.calledFar ((s.nextIp (Instr.callPtr p sel off).length).extractLsb' 0 16) sel off t :=
  State.next_of_effect rfl rfl (State.callFar_ok hwf h h2 _ sel off)

/-- Settles O51: the target is read, where it is in an operand, and then the call is `State.callNear` or
`State.callFar`. -/
theorem callsComplete : Obligations.CallsComplete := by
  intro s p rel sel off rm m hwf h nextIp a near far
  refine ⟨?_, fun hrm => ?_, fun h2 => ?_, fun h2 hm => ?_⟩
  · have called := State.callRel_completes hwf h p rel
    rw [State.target_eq] at called
    exact called
  · exact State.next_of_effect rfl (bind_of_ok (State.readRM_ok hrm)) (State.callNear_ok hwf h _ _)
  · exact State.callPtr_completes hwf h h2 p sel off
  · exact State.next_of_effect rfl (bind_of_ok (State.readFar_ok hm)) (State.callFar_ok hwf h h2 _ _ _)

/-! ## RET -/

/-- SP written twice. -/
@[simp] theorem State.setSp_setSp (s : State) (v v' : Word) : (s.setSp v).setSp v' = s.setSp v' := by
  simp only [State.setSp, State.setReg, Regs.write_word_write_word]

/-- SP moved up by the bytes popped and then by a release count (R334, R337). -/
theorem State.setSp_release (s : State) (k : Nat) (n : Word) :
    (s.setSp (s.sp + BitVec.ofNat 16 k)).setSp ((s.setSp (s.sp + BitVec.ofNat 16 k)).sp + n) =
      s.setSp (s.sp + BitVec.ofNat 16 (k + n.toNat)) := by
  rw [State.setSp_setSp, State.sp_setSp, ← State.sp_add_add s k, BitVec.ofNat_toNat, BitVec.setWidth_eq]

/-- Two words popped: what a far return begins with. -/
theorem State.pop_two_words {s : State} (h : s.canPop 0 2) (h2 : s.canPop 2 2) :
    s.pop .word = .ok (s.stackWord 0, s.setSp (s.sp + BitVec.ofNat 16 2)) ∧
    (s.setSp (s.sp + BitVec.ofNat 16 2)).pop .word =
      .ok (s.stackWord 2, s.setSp (s.sp + BitVec.ofNat 16 4)) := by
  have second := State.pop_word_after (t := s.setSp (s.sp + BitVec.ofNat 16 2)) (State.sp_setSp _ _) rfl rfl rfl rfl h2
  rw [State.setSp_setSp] at second
  exact ⟨State.pop_word h, second⟩

/-- A near return whose word can be popped. -/
theorem State.returnNear_ok {s : State} (h : s.canPop 0 2) (n : Word) :
    s.returnNear n =
      .ok ((s.setSp (s.sp + BitVec.ofNat 16 (2 + n.toNat))).jump ((s.stackWord 0).setWidth 32)) := by
  rw [← State.setSp_release]
  exact bind_of_ok (State.pop_word h)

/-- A far return whose words can be popped. -/
theorem State.returnFar_ok {s : State} (h : s.canPop 0 2) (h2 : s.canPop 2 2) (n : Word) :
    s.returnFar n =
      .ok ((s.setSp (s.sp + BitVec.ofNat 16 (4 + n.toNat))).jumpFar (s.stackWord 2) (s.stackWord 0)) := by
  obtain ⟨first, second⟩ := State.pop_two_words h h2
  rw [← State.setSp_release]
  exact (bind_of_ok first).trans (bind_of_ok second)

/-- RET near (R334). -/
theorem State.retNear_transfersTo {s : State} (p : Prefixes) (h : s.canPop 0 2) :
    s.transfersTo (.retNear p) (s.poppedRegs 2) s.segs.cs ((s.stackWord 0).setWidth 32) :=
  State.transfersTo_of_jump rfl (State.returnNear_ok h 0)

/-- RET far (R333). -/
theorem State.retFar_transfersTo {s : State} (p : Prefixes) (h : s.canPop 0 2) (h2 : s.canPop 2 2) :
    s.transfersTo (.retFar p) (s.poppedRegs 4) (s.stackWord 2) ((s.stackWord 0).setWidth 32) :=
  State.transfersTo_of_jump rfl (State.returnFar_ok h h2 0)

/-- Settles O52: each form is `State.returnNear` or `State.returnFar`; a form without a count releases 0 bytes. -/
theorem returnsComplete : Obligations.ReturnsComplete := by
  intro s p n h ip
  refine ⟨?_, ?_, fun h2 => ⟨?_, ?_⟩⟩
  · exact State.retNear_transfersTo p h
  · exact State.transfersTo_of_jump rfl (State.returnNear_ok h n)
  · exact State.retFar_transfersTo p h h2
  · exact State.transfersTo_of_jump rfl (State.returnFar_ok h h2 n)

/-! ## A return after its call -/

/-- `t` has the stack segment and the memory map of `s`, and its registers with SP moved down by `k`: what is left of
`s` when `k` bytes have been pushed and control has gone elsewhere. -/
structure State.StackBelow (s : State) (k : Nat) (t : State) : Prop where
  regs : t.regs = s.pushedRegs k
  ss : t.segs.ss = s.segs.ss
  present : t.present = s.present
  mmio : t.mmio = s.mmio

theorem State.StackBelow.sp {s t : State} {k : Nat} (h : s.StackBelow k t) : t.sp = s.sp - BitVec.ofNat 16 k := by
  rw [State.sp, State.reg, h.regs]
  exact Regs.read_write_word _ _ _

theorem State.StackBelow.linear {s t : State} {k : Nat} (h : s.StackBelow k t) (off : Nat) :
    t.linear .ss off = s.linear .ss off := by
  simp only [State.linear, State.sreg, Segs.get, h.ss]

/-- The word to be popped after `j` bytes is the word pushed `j` bytes before the last. -/
theorem State.StackBelow.above {s t : State} {j k : Nat} (h : s.StackBelow (k + j) t) : t.above j = s.below k := by
  rw [State.above, State.below, h.sp, ← State.sp_sub_sub, BitVec.sub_add_cancel]

/-- A word that could be pushed can be popped. -/
theorem State.StackBelow.canPop {s t : State} {j k : Nat} (h : s.StackBelow (k + 2 + j) t) (hk : s.canPush k 2) :
    t.canPop j 2 := by
  simp only [State.canPop, State.reachesAt, State.plain, h.above, h.linear, h.present, h.mmio]
  exact hk

/-- The word popped is the word pushed. -/
theorem State.StackBelow.stackWord {s t : State} {j k : Nat} (h : s.StackBelow (k + j) t) :
    t.stackWord j = t.mem.read (s.linear .ss (s.below k)) .word := by
  rw [State.stackWord, h.above, h.linear]

/-- Popping all that was pushed restores every register (R95). -/
theorem State.StackBelow.poppedRegs {s t : State} {k : Nat} (h : s.StackBelow k t) : t.poppedRegs k = s.regs := by
  rw [State.poppedRegs, h.sp, h.regs, BitVec.sub_add_cancel]
  exact (Regs.write_word_write_word _ _ _ _).trans (Regs.write_word_read _ _)

/-- The near return at the target of a near call. -/
theorem State.calledNear.returns {s t : State} {ret : Word} {dest : Dword} (h : s.calledNear ret dest t)
    (hpush : s.canPush 0 2) (q : Prefixes) :
    ∃ u, exec (.retNear q) t = .next u ∧ u.regs = s.regs ∧ u.segs = s.segs ∧ u.flags = s.flags ∧
      u.eip = ret.setWidth 32 := by
  obtain ⟨regs, segs, -, flags, ⟨present, mmio, -⟩, -, top, -⟩ := h
  have stack : s.StackBelow 2 t := ⟨regs, by rw [segs], present, mmio⟩
  have word : t.stackWord 0 = ret := (State.StackBelow.stackWord (j := 0) stack).trans top
  obtain ⟨u, run, uregs, usegs, ueip, uflags, -⟩ :=
    State.retNear_transfersTo q (State.StackBelow.canPop (j := 0) (k := 0) stack hpush)
  exact ⟨u, run, uregs.trans stack.poppedRegs, usegs.trans segs, uflags.trans flags,
    ueip.trans (congrArg (BitVec.setWidth 32) word)⟩

/-- The far return at the target of a far call. -/
theorem State.calledFar.returns {s t : State} {ret cs ip : Word} (h : s.calledFar ret cs ip t)
    (hpush : s.canPush 0 2) (hpush2 : s.canPush 2 2) (q : Prefixes) :
    ∃ u, exec (.retFar q) t = .next u ∧ u.regs = s.regs ∧ u.segs = s.segs ∧ u.flags = s.flags ∧
      u.eip = ret.setWidth 32 := by
  obtain ⟨regs, segs, -, flags, ⟨present, mmio, -⟩, -, top, selector, -⟩ := h
  have stack : s.StackBelow 4 t := ⟨regs, by rw [segs], present, mmio⟩
  have word : t.stackWord 0 = ret := (State.StackBelow.stackWord (j := 0) stack).trans top
  have word2 : t.stackWord 2 = s.segs.cs := (State.StackBelow.stackWord (j := 2) (k := 2) stack).trans selector
  obtain ⟨u, run, uregs, usegs, ueip, uflags, -⟩ :=
    State.retFar_transfersTo q (State.StackBelow.canPop (j := 0) (k := 2) stack hpush2)
      (State.StackBelow.canPop (j := 2) (k := 0) stack hpush)
  refine ⟨u, run, uregs.trans stack.poppedRegs, ?_, uflags.trans flags,
    ueip.trans (congrArg (BitVec.setWidth 32) word)⟩
  rw [usegs, segs, word2]

/-- An outcome has one next state. -/
theorem of_next_eq {o : Host.Outcome State Fault Refusal} {t : State} {P : State → Prop} (ho : o = .next t)
    (h : ∃ u, o = .next u ∧ P u) : P t := by
  obtain ⟨u, rfl, hu⟩ := h
  cases ho
  exact hu

/-- Settles O53: the words the return pops are those the call pushed, by `State.StackBelow`. -/
theorem callThenReturnRestores : Obligations.CallThenReturnRestores := by
  intro s t p q rel sel off hwf h
  refine ⟨fun call => ?_, fun h2 call => ?_⟩
  · have called := of_next_eq call (State.callRel_completes hwf h p rel)
    rw [← BitVec.setWidth_eq_extractLsb' (by decide)] at called
    exact called.returns h q
  · have called := of_next_eq call (State.callPtr_completes hwf h h2 p sel off)
    rw [← BitVec.setWidth_eq_extractLsb' (by decide)] at called
    exact called.returns h h2 q

/-! ## IRET -/

/-- Settles O54: by `State.returnFromInterrupt_ok`; a word loaded into FLAGS reads back. -/
theorem iretCompletes : Obligations.IretCompletes := by
  intro s p h h2 h4
  obtain ⟨t, effect, regs, segs, eip, flags, mem, control⟩ := State.returnFromInterrupt_ok h h2 h4
  refine ⟨t, congrArg s.retireJump effect, regs, segs, eip, ?_, ?_, mem, control⟩
  · rw [flags, EFlags.toFlags_loadFlags]
  · rw [flags]
    rfl

end Sys2Proof.Machine
end

section
/-!
PROOFS. Flag control (R360 to R364), the I/O space (R365 to R368, U12) and MOV at memory-mapped devices (R103).
-/

namespace Sys2Proof.Machine

/-! ## Flag control -/

/-- STI sets IF, and opens its window when IF was 0 (R364). -/
theorem State.enableInterrupts_eq (s : State) :
    s.enableInterrupts = { s with
      flags := { s.flags with ief := true }, inhibitMaskable := !s.flags.ief || s.inhibitMaskable } := by
  rw [State.enableInterrupts]
  cases s.flags.ief with
  | true => rfl
  | false => rfl

/-- Settles O57: STC, CLC and CMC are a row of R49 with CF alone; CLI and STI, by `State.enableInterrupts_eq`,
change IF alone but for STI's window. -/
theorem flagControlCompletes : Obligations.FlagControlCompletes := by
  intro s p
  have sti := exec_of_effect (i := .sti p) rfl (congrArg Except.ok s.enableInterrupts_eq)
  refine ⟨rfl, rfl, rfl, ?_, ?_, ?_, ⟨_, rfl, rfl⟩, _, sti, rfl⟩
  · exact State.completesRegs_of_status rfl
  · exact State.completesRegs_of_status rfl
  · exact State.completesRegs_of_status rfl

/-! ## The I/O space -/

theorem checkPorts_ok {port : Word} {w : Width} (h : port.toNat + w.bytes ≤ 0x10000) :
    checkPorts port w = .ok () := if_pos h

theorem checkPorts_past {port : Word} {w : Width} (h : 0x10000 < port.toNat + w.bytes) :
    checkPorts port w = .error (.refuse .ioPast64K) := if_neg (Nat.not_le.2 h)

/-- A port given by an immediate byte is below 100H, so that no access from it runs past 0FFFFH (R365). -/
theorem immediate_port_fits (imm : Byte) (w : Width) : (imm.setWidth 16).toNat + w.bytes ≤ 0x10000 := by
  have := imm.isLt
  have := Width.bytes_le w
  rw [BitVec.toNat_setWidth]
  omega

/-- The platform presents a value to the access, and it is recorded (R102, D13). -/
theorem State.ioRead_ok {s : State} {w : Width} {port : Word} (h : port.toNat + w.bytes ≤ 0x10000) :
    s.ioRead port w =
      .ok (s.portInput.setWidth w.bits, s.usedInput.logIo .input port w (s.portInput.setWidth w.bits)) :=
  bind_of_ok (checkPorts_ok h)

/-- IN puts what the platform presents in the accumulator (R365, R366). -/
theorem State.inFrom_ok {s : State} {w : Width} {port : Word} (h : port.toNat + w.bytes ≤ 0x10000) :
    s.inFrom w port = .ok ((s.usedInput.logIo .input port w (s.portInput.setWidth w.bits)).setReg .eax w
      (s.portInput.setWidth w.bits)) :=
  bind_of_ok (State.ioRead_ok h)

/-- The value written is recorded (R102, D13). -/
theorem State.ioWrite_ok {s : State} {w : Width} {port : Word} {v : BitVec w.bits}
    (h : port.toNat + w.bytes ≤ 0x10000) : s.ioWrite port w v = .ok (s.logIo .output port w v) :=
  bind_of_ok (checkPorts_ok h)

theorem State.inFrom_past {s : State} {w : Width} {port : Word} (h : 0x10000 < port.toNat + w.bytes) :
    s.inFrom w port = .error (.refuse .ioPast64K) :=
  bind_of_error (bind_of_error (checkPorts_past h))

theorem State.ioWrite_past {s : State} {w : Width} {port : Word} {v : BitVec w.bits}
    (h : 0x10000 < port.toNat + w.bytes) : s.ioWrite port w v = .error (.refuse .ioPast64K) :=
  bind_of_error (checkPorts_past h)

/-- The platform presents the first value of the host's script, when there is one (D13). -/
theorem State.portInput_cons {s : State} {x : Dword} {xs : List Dword} (h : s.ioIn = x :: xs) :
    s.portInput = x ∧ s.usedInput.ioIn = xs := by
  simp [State.portInput, State.usedInput, h]

/-! ## Loads from memory-mapped devices -/

/-- Bytes put together, the lowest last, come apart again (R84). -/
theorem leBytes_word_append (b1 b0 : Byte) : leBytes .word (b1 ++ b0) = [b0, b1] := by
  simp only [leBytes, wordBytes, BitVec.extractLsb'_append_eq_right, BitVec.extractLsb'_append_eq_left]

theorem leBytes_dword_append (b3 b2 b1 b0 : Byte) : leBytes .dword (b3 ++ b2 ++ b1 ++ b0) = [b0, b1, b2, b3] := by
  have skip {n : Nat} (x : BitVec n) (b : Byte) (k : Nat) : (x ++ b).extractLsb' (k + 8) 8 = x.extractLsb' k 8 :=
    BitVec.extractLsb'_append_eq_of_le (Nat.le_add_left 8 k)
  have h0 : (b3 ++ b2 ++ b1 ++ b0).extractLsb' 0 8 = b0 := BitVec.extractLsb'_append_eq_right
  have h1 : (b3 ++ b2 ++ b1 ++ b0).extractLsb' 8 8 = b1 := (skip _ _ 0).trans BitVec.extractLsb'_append_eq_right
  have h2 : (b3 ++ b2 ++ b1 ++ b0).extractLsb' 16 8 = b2 :=
    (skip _ _ 8).trans ((skip _ _ 0).trans BitVec.extractLsb'_append_eq_right)
  have h3 : (b3 ++ b2 ++ b1 ++ b0).extractLsb' 24 8 = b3 :=
    (skip _ _ 16).trans ((skip _ _ 8).trans BitVec.extractLsb'_append_eq_left)
  simp only [leBytes, dwordBytes, h0, h1, h2, h3]

/-- An operand is loaded as so many bytes of code are: each byte in turn, from memory or its device. -/
theorem State.loadBytes_eq_loadCode (s : State) (a : Nat) (w : Width) :
    leBytes w (s.loadBytes a w).1 = (s.loadCode a w.bytes).1 ∧ (s.loadBytes a w).2 = (s.loadCode a w.bytes).2 := by
  cases w with
  | byte => exact ⟨rfl, rfl⟩
  | word => exact ⟨leBytes_word_append _ _, rfl⟩
  | dword => exact ⟨leBytes_dword_append _ _ _ _, rfl⟩

/-- All that a read of bytes from devices changes: one byte of the script used up for each, each recorded, and the
free draws (R103, log entry 32). -/
theorem State.loadCode_devices_state : ∀ (n : Nat) (s : State) (a : Nat), s.devices a n → ∃ k,
    (s.loadCode a n).2 = { s with
      deviceIn := s.deviceIn.drop n
      deviceTrace := s.deviceTrace ++
        (s.loadCode a n).1.zipIdx.map fun b => (⟨.input, a + b.2, b.1⟩ : DeviceAccess)
      draws := k }
  | 0, s, a, _ => ⟨s.draws, by simp [State.loadCode]⟩
  | n + 1, s, a, h => by
    have hb : s.loadByte a = (s.deviceInput, s.usedDeviceInput.logDevice .input a s.deviceInput) :=
      if_pos (h 0 (Nat.succ_pos n)).2
    have hn : (s.usedDeviceInput.logDevice .input a s.deviceInput).devices (a + 1) n := h.tail
    obtain ⟨k, e⟩ := State.loadCode_devices_state n _ (a + 1) hn
    refine ⟨k, ?_⟩
    simp only [State.loadCode, hb, e]
    simp [State.logDevice, State.usedDeviceInput, List.zipIdx_succ, Function.comp_def, Nat.add_assoc,
      Nat.add_comm 1]

/-- The bytes read from devices are those of the script (R103). -/
theorem State.loadCode_devices_bytes : ∀ (bs rest : List Byte) (s : State) (a : Nat), s.devices a bs.length →
    s.deviceIn = bs ++ rest → (s.loadCode a bs.length).1 = bs
  | [], _, _, _, _, _ => rfl
  | b :: bs, rest, s, a, h, hin => by
    have hb := State.loadByte_device (h 0 (Nat.succ_pos _)).2 hin
    simp only [Nat.add_zero] at hb
    simp only [List.length_cons, State.loadCode, hb, List.cons.injEq, true_and]
    exact State.loadCode_devices_bytes bs rest _ (a + 1) h.tail rfl

/-- An operand loaded from devices: its bytes are recorded, and are those of the script where it has so many
(R103). -/
theorem State.loadBytes_devices {s : State} {a : Nat} {w : Width} (h : s.devices a w.bytes) :
    ∃ (v : BitVec w.bits) (k : Nat), s.loadBytes a w = (v, { s with
        deviceIn := s.deviceIn.drop w.bytes
        deviceTrace := s.deviceTrace ++ (leBytes w v).zipIdx.map fun b => (⟨.input, a + b.2, b.1⟩ : DeviceAccess)
        draws := k }) ∧
      ∀ bs rest, s.deviceIn = bs ++ rest → bs.length = w.bytes → leBytes w v = bs := by
  obtain ⟨value, state⟩ := s.loadBytes_eq_loadCode a w
  obtain ⟨k, read⟩ := State.loadCode_devices_state w.bytes s a h
  refine ⟨(s.loadBytes a w).1, k, Prod.ext rfl ?_, fun bs rest hin hlen => ?_⟩
  · rw [state, value, read]
  · rw [value, ← hlen]
    exact State.loadCode_devices_bytes bs rest s a (hlen ▸ h) hin

/-- A memory operand in devices read: the devices' bytes, and no limit in the way (R90, R103). -/
theorem State.readRM_devices {s : State} {p : Prefixes} {m : Mem} {w : Width}
    (hlim : (s.addr m).toNat + w.bytes ≤ 0x10000) (h : s.devices (s.operandAddr p m) w.bytes) :
    s.readRM p (.mem m) w = .ok (s.loadBytes (s.operandAddr p m) w) :=
  (bind_of_ok (checkLimit_ok hlim)).trans (bind_of_ok (s.checkPresent_devices _ _ h))

/-! ## Stores to memory-mapped devices -/

/-- A memory operand in devices written: each byte presented to its device (R90, R103). -/
theorem State.writeRM_devices {s : State} {p : Prefixes} {m : Mem} {w : Width} {v : BitVec w.bits}
    (hlim : (s.addr m).toNat + w.bytes ≤ 0x10000) (h : s.devices (s.operandAddr p m) w.bytes) :
    s.writeRM s p (.mem m) w v = .ok { s with
      deviceTrace := s.deviceTrace ++
        (leBytes w v).zipIdx.map fun b => (⟨.output, s.operandAddr p m + b.2, b.1⟩ : DeviceAccess)
      stored := ((List.range w.bytes).map (s.operandAddr p m + ·)).reverse ++ s.stored } := by
  have put := State.putBytes_devices (leBytes w v) s (s.operandAddr p m) (by rwa [leBytes_length])
  rw [leBytes_length] at put
  exact (bind_of_ok (checkLimit_ok hlim)).trans
    ((bind_of_ok (s.checkPresent_devices _ _ h)).trans (congrArg _ put))

/-- The addresses remembered of a store of `n` bytes at `a`, and those remembered before it (R113). -/
theorem mem_remembered (a n : Nat) (old : List Nat) (b : Nat) :
    b ∈ ((List.range n).map (a + ·)).reverse ++ old ↔ b ∈ old ∨ (a ≤ b ∧ b < a + n) := by
  rw [List.mem_append, List.mem_reverse, ← List.range'_eq_map_range, List.mem_range'_1, or_comm]

/-- Settles O58: IN and OUT by `State.inFrom_ok` and `State.ioWrite_ok`; a MOV from a device by the read of its
bytes, one to a device by their record. -/
theorem portAccessCompletes : Obligations.PortAccessCompletes := by
  intro s p w imm r m reads outputs dx
  have input {i : Instr} {port : Word} (fits : port.toNat + w.bytes ≤ 0x10000)
      (he : exec i s = s.retire i.length (s.inFrom w port)) : reads i port := by
    refine ⟨_, s.portInput.setWidth w.bits, exec_of_effect he (State.inFrom_ok fits), rfl, fun x xs h => ?_, rfl,
      rfl, rfl, ⟨rfl, rfl⟩, rfl, State.sameControl_refl s⟩
    obtain ⟨value, script⟩ := State.portInput_cons h
    exact ⟨congrArg _ value, script⟩
  have output {i : Instr} {port : Word} (fits : port.toNat + w.bytes ≤ 0x10000)
      (he : exec i s = s.retire i.length (s.ioWrite port w (s.reg .eax w))) : outputs i port :=
    exec_of_effect he (State.ioWrite_ok fits)
  refine ⟨input (immediate_port_fits imm w) rfl, output (immediate_port_fits imm w) rfl,
    fun fits => ⟨input fits rfl, output fits rfl⟩, fun past => ⟨?_, ?_⟩, fun hlim hdev => ⟨?_, ?_⟩⟩
  · exact congrArg (s.retire _) (State.inFrom_past past)
  · exact congrArg (s.retire _) (State.ioWrite_past past)
  · obtain ⟨v, k, load, script⟩ := State.loadBytes_devices hdev
    have effect := bind_of_ok (f := fun x => .ok (x.2.setReg r w x.1)) (State.readRM_devices hlim hdev)
    rw [load] at effect
    refine ⟨_, v, exec_of_effect rfl effect, rfl, rfl, fun bs rest hin hlen => ⟨script bs rest hin hlen, ?_⟩,
      rfl, rfl, ⟨rfl, rfl⟩, rfl, State.sameControl_refl s⟩
    exact (congrArg (List.drop w.bytes) hin).trans (List.drop_left' hlen)
  · exact ⟨_, exec_of_effect rfl (State.writeRM_devices hlim hdev), rfl, mem_remembered _ _ _, rfl, rfl, rfl, rfl, rfl,
      State.sameControl_refl s⟩

end Sys2Proof.Machine
end

section
/-!
PROOFS. LEA and NOP (R370, R371), and the effective address, the segment and the linear address of a memory operand
(R82, R92, R93, R131 to R133).
-/

namespace Sys2Proof.Machine

/-! ## Effective addresses -/

/-- A word register is the low half of its 32-bit register (R32). -/
theorem State.reg_word_toNat (s : State) (r : Reg) : (s.reg r .word).toNat = (s.regs.get r).toNat % 2 ^ 16 :=
  BitVec.extractLsb'_toNat 0 16 (s.regs.get r)

/-- Two word registers added, modulo 2^16 (R131). -/
theorem State.reg_word_add_toNat (s : State) (r r' : Reg) :
    (s.reg r .word + s.reg r' .word).toNat =
      ((s.regs.get r).toNat % 2 ^ 16 + (s.regs.get r').toNat % 2 ^ 16) % 2 ^ 16 := by
  rw [BitVec.toNat_add, State.reg_word_toNat, State.reg_word_toNat]

/-- A 16-bit effective address is the sum of its registers and displacement, modulo 2^16 (R131). -/
theorem State.addr_base16_toNat {s : State} {b : Base16} {sum : Nat} (h : (s.base16 b).toNat = sum % 2 ^ 16)
    (d : Disp16) : (s.addr (.base16 b d)).toNat = (sum + d.value.toNat) % 2 ^ 16 := by
  have := (s.base16 b + d.value).isLt
  rw [State.addr, BitVec.toNat_setWidth, BitVec.toNat_add, h]
  omega

/-- A 16-bit offset is zero-extended (R131). -/
theorem State.addr_abs16_toNat (s : State) (v : Word) : (s.addr (.abs16 v)).toNat = v.toNat :=
  BitVec.toNat_setWidth_of_le (by decide)

/-- Without an index the SIB byte gives the base alone (R133). -/
theorem State.addr_sib_none (s : State) (b : Reg) (ss : Scale) (d : Disp32) :
    s.addr (.sib b none ss d) = s.addr (.base32 b d) :=
  congrArg (· + d.value) (BitVec.add_zero _)

/-- Without base and index the SIB byte gives the displacement alone (R133). -/
theorem State.addr_sibAbs_none (s : State) (ss : Scale) (v : Dword) : s.addr (.sibAbs none ss v) = v :=
  BitVec.zero_add v

/-- A base and a displacement, modulo 2^32 (R132). -/
theorem State.addr_base32_toNat (s : State) (b : Reg) (d : Disp32) :
    (s.addr (.base32 b d)).toNat = ((s.regs.get b).toNat + d.value.toNat) % 2 ^ 32 :=
  BitVec.toNat_add _ _

/-- The scaled index, modulo 2^32 (R133). -/
theorem State.index_toNat (s : State) (i : Reg) (ss : Scale) :
    (s.index (some i) ss).toNat = (s.regs.get i).toNat * ss.factor.toNat % 2 ^ 32 :=
  BitVec.toNat_mul _ _

/-- A base, a scaled index and a displacement, modulo 2^32 (R133). -/
theorem State.addr_sib_toNat (s : State) (b i : Reg) (ss : Scale) (d : Disp32) :
    (s.addr (.sib b (some i) ss d)).toNat =
      ((s.regs.get b).toNat + (s.regs.get i).toNat * ss.factor.toNat + d.value.toNat) % 2 ^ 32 := by
  rw [State.addr, BitVec.toNat_add, BitVec.toNat_add, State.index_toNat]
  simp only [State.reg, Regs.read, Nat.mod_add_mod, Nat.add_mod_mod]

/-- A scaled index and a displacement, modulo 2^32 (R133). -/
theorem State.addr_sibAbs_toNat (s : State) (i : Reg) (ss : Scale) (v : Dword) :
    (s.addr (.sibAbs (some i) ss v)).toNat =
      ((s.regs.get i).toNat * ss.factor.toNat + v.toNat) % 2 ^ 32 := by
  rw [State.addr, BitVec.toNat_add, State.index_toNat, Nat.mod_add_mod]

/-! ## Segments -/

/-- A 16-bit address has SS as its default exactly with BP (R92). -/
theorem Base16.segment_eq (b : Base16) : b.segment = if b = .bpsi ∨ b = .bpdi ∨ b = .bp then .ss else .ds := by
  cases b <;> rfl

/-- A 32-bit address has SS as its default exactly with ESP or EBP as base (R92). -/
theorem Reg.segment_eq (b : Reg) : b.segment = if b = .esp ∨ b = .ebp then .ss else .ds := by
  cases b <;> rfl

/-- Settles O59: each address by the lemma of its form; the displacement and the scale of the statement are
`Disp16.value`, `Disp32.value` and `Scale.factor` spelled out. -/
theorem leaAndNopComplete : Obligations.LeaAndNopComplete := by
  intro s p r b m d16 d32 i ss v16 v sr off
  refine ⟨⟨State.completesWith_of_setReg rfl, ?_, rfl⟩, ?_, ?_, fun h => ?_, fun h => ?_, rfl⟩
  · exact State.raises.of_retire (i := .lea p r (.reg b)) (len := (Instr.lea p r (.reg b)).length) rfl rfl
  · intro low disp is
    have sum {base : Base16} {n : Nat} (h : (s.base16 base).toNat = n % 2 ^ 16) : is base n :=
      State.addr_base16_toNat h d16
    have one (r : Reg) : (s.reg r .word).toNat = low (s.regs.get r) % 2 ^ 16 := by
      rw [State.reg_word_toNat, Nat.mod_mod]
    have two (r r' : Reg) := s.reg_word_add_toNat r r'
    exact ⟨⟨sum (two _ _), sum (two _ _), sum (two _ _), sum (two _ _)⟩,
      ⟨sum (one _), sum (one _), sum (one _), sum (one _)⟩, s.addr_abs16_toNat v16⟩
  · intro disp scale base index
    have hscale : ss.factor.toNat = scale := by cases ss <;> rfl
    refine ⟨s.addr_base32_toNat b d32, rfl, ?_, ?_, ?_, ?_⟩
    · rw [s.addr_sib_none]
      exact s.addr_base32_toNat b d32
    · exact hscale ▸ s.addr_sib_toNat b i ss d32
    · rw [s.addr_sibAbs_none]
    · exact hscale ▸ s.addr_sibAbs_toNat i ss v
  · rw [Mem.seg, h]
    rfl
  · rw [Mem.seg, h]
    cases m with
    | base16 base _ => exact Base16.segment_eq base
    | base32 base _ => exact Reg.segment_eq base
    | sib base _ _ _ => exact Reg.segment_eq base
    | abs16 _ => rfl
    | abs32 _ => rfl
    | sibAbs _ _ _ => rfl

end Sys2Proof.Machine
end

section
/-!
PROOFS. Interrupts (R402, R408, R411 to R417): which external interrupt a boundary takes, the windows that hold one
back, the frame of the interrupt sequence, and the IRET that undoes it.
-/

namespace Sys2Proof.Machine

/-! ## What a boundary takes -/

/-- An NMI event that waits is recognised outside the MOV SS window, before INTR (R412, R413, D18). -/
theorem State.recognised_nmi {s : State} (waits : 0 < s.nmi) (closed : s.inhibit = false) :
    s.recognised = some ({ s with nmi := s.nmi - 1 }, 2) := by
  simp [State.recognised, waits, closed]

/-- INTR is recognised when no NMI event waits, IF is 1 and both windows are closed (R411, R413). -/
theorem State.recognised_intr {s : State} {n : Byte} (noNmi : s.nmi = 0) (intr : s.intr = some n)
    (enabled : s.flags.ief = true) (closed : s.inhibit = false) (closed' : s.inhibitMaskable = false) :
    s.recognised = some (s, n) := by
  simp [State.recognised, noNmi, intr, enabled, closed, closed']

/-- Nothing is recognised when neither NMI nor INTR can be (R411 to R413). -/
theorem State.recognised_eq_none {s : State} (nmi : s.nmi = 0 ∨ s.inhibit = true)
    (intr : s.intr = none ∨ s.flags.ief = false ∨ s.inhibit = true ∨ s.inhibitMaskable = true) :
    s.recognised = none := by
  have noNmi : ¬(decide (0 < s.nmi) && !s.inhibit) = true := by
    rcases nmi with h | h <;> simp [h]
  rw [State.recognised, if_neg noNmi]
  split
  · next n level =>
    refine if_neg ?_
    rcases intr with h | h | h | h
    · simp [h] at level
    · simp [h]
    · simp [h]
    · simp [h]
  · rfl

/-- A recognised interrupt is taken at the boundary, with EIP as the return offset (R415). -/
theorem step_of_recognised {s u : State} {n : Byte} (hr : s.resetSignal = false) (hs : s.shutdown = false)
    (ht : s.flags.tf = false) (hn : s.recognised = some (u, n)) :
    step s = u.interrupt n (u.eip.extractLsb' 0 16) false := by
  simp [step, hr, hs, ht, hn]

/-- Settles O12: by what `State.recognised` answers in each of the three cases. -/
theorem boundaryTakesInterrupts : Obligations.BoundaryTakesInterrupts := by
  intro s hr hs ht
  refine ⟨fun waits closed => ?_, fun n noNmi intr enabled closed closed' => ?_, State.recognised_eq_none⟩
  · exact step_of_recognised hr hs ht (State.recognised_nmi waits closed)
  · exact step_of_recognised hr hs ht (State.recognised_intr noNmi intr enabled closed closed')

/-! ## The windows -/

/-- After an instruction that loads SS, whatever it read before, nothing is recognised (R413, R461). -/
theorem State.recognised_after_loadSs {s t u : State} {i : Instr} {α : Type} {x : Except Trap α} {a : α}
    {f : α → Except Trap State} {v : Word} (he : exec i s = s.retire i.length (x >>= f)) (hx : x = .ok a)
    (hf : f a = .ok (u.loadSreg .ss v)) (ht : exec i s = .next t) : t.recognised = none := by
  rw [exec_of_effect he ((bind_of_ok hx).trans hf), State.retire_ok, State.loadSreg_eq] at ht
  cases ht
  exact State.recognised_eq_none (.inr rfl) (.inr (.inr (.inl rfl)))

/-- After STI from IF = 0 the window for INTR is open (R364). -/
theorem exec_sti_window {s t : State} {p : Prefixes} (disabled : s.flags.ief = false)
    (ht : exec (.sti p) s = .next t) : t.inhibitMaskable = true ∧ t.nmi = s.nmi := by
  rw [exec_of_effect (i := .sti p) rfl (congrArg Except.ok s.enableInterrupts_eq), State.retire_ok] at ht
  cases ht
  exact ⟨by simp [disabled], rfl⟩

/-- After CLI IF is 0 (R363). -/
theorem exec_cli_disables {s t : State} {p : Prefixes} (ht : exec (.cli p) s = .next t) :
    t.flags.ief = false ∧ t.nmi = s.nmi := by
  cases ht
  exact ⟨rfl, rfl⟩

/-- Settles O13: MOV SS and POP SS open the window for both interrupts, STI the one for INTR, and after CLI it is IF
that holds INTR back. -/
theorem windowsHoldInterrupts : Obligations.WindowsHoldInterrupts := by
  intro s t p q
  refine ⟨fun rm v read ht => ?_, fun pop ht => ?_, fun disabled noNmi ht => ?_⟩
  · exact State.recognised_after_loadSs rfl read rfl ht
  · exact State.recognised_after_loadSs rfl (State.pop_ok pop) rfl ht
  · obtain ⟨window, nmi⟩ := exec_sti_window disabled ht
    refine ⟨State.recognised_eq_none (.inl (nmi.trans noNmi)) (.inr (.inr (.inr window))), fun u hu => ?_⟩
    obtain ⟨ief, nmi'⟩ := exec_cli_disables hu
    exact State.recognised_eq_none (.inl (nmi'.trans (nmi.trans noNmi))) (.inr (.inl ief))

/-! ## The interrupt sequence -/

/-- `image` holds the described flags of `f`, but for the status flags of a divide error (R402, D16). -/
def EFlags.describedIn (f : EFlags) (de : Bool) (image : Word) : Prop :=
  image.getLsbD 8 = f.tf ∧ image.getLsbD 9 = f.ief ∧
    (de = false → image.getLsbD 0 = f.cf ∧ image.getLsbD 2 = f.pf ∧ image.getLsbD 4 = f.af ∧
      image.getLsbD 6 = f.zf ∧ image.getLsbD 7 = f.sf ∧ image.getLsbD 11 = f.ovf)

/-- `t` is `s` after the interrupt sequence for identifier `n` with the return offset `ret` (R402, R408). -/
def State.interrupted (s : State) (n : Byte) (ret : Word) (de : Bool) (t : State) : Prop :=
  t.regs = s.pushedRegs 6 ∧ t.segs = { s.segs with cs := s.mem.read (4 * n.toNat + 2) .word } ∧
    t.eip = (s.mem.read (4 * n.toNat) .word).setWidth 32 ∧ t.flags = { s.flags with ief := false, tf := false } ∧
    s.sameControl { t with inhibit := s.inhibit, cycles := s.cycles } ∧ t.inhibit = false ∧
    t.mem.read (s.linear .ss (s.below 6)) .word = ret ∧ t.mem.read (s.linear .ss (s.below 4)) .word = s.segs.cs ∧
    s.flags.describedIn de (t.mem.read (s.linear .ss (s.below 2)) .word) ∧
    ∀ b, (∀ k ∈ [2, 4, 6], b < s.linear .ss (s.below k) ∨ s.linear .ss (s.below k) + 2 ≤ b) →
      t.mem.get b = s.mem.get b

/-- Entering the handler after pushes from `s` changes CS, IF and TF, and of the rest of the control state `inhibit`
and the cycles alone (R402). -/
theorem State.PushedBy.enterHandler {s t : State} {k : Nat} (h : s.PushedBy k t) (sel off : Word) :
    (t.enterHandler sel off).segs = { s.segs with cs := sel } ∧
    (t.enterHandler sel off).flags = { s.flags with ief := false, tf := false } ∧
    s.sameControl { t.enterHandler sel off with inhibit := s.inhibit, cycles := s.cycles } := by
  obtain ⟨present, mmio, intr, nmi, reset, devIn, devTrace, ioIn, ioTrace, -, shutdown, -, maskable⟩ := h.control
  refine ⟨congrArg (Segs.set · .cs sel) h.segs, ?_, present, mmio, intr, nmi, reset, devIn, devTrace, ioIn, ioTrace,
    rfl, shutdown, rfl, maskable⟩
  exact congrArg (fun f : EFlags => { f with ief := false, tf := false }) h.flags

/-- The interrupt sequence, with its table entry in plain memory and room for its frame (R402). -/
theorem State.interruptSequence_ok {s : State} {n : Byte} (hwf : s.mem.wf = true) (hv : s.plain (4 * n.toNat) 4)
    (h : s.canPush 0 2) (h2 : s.canPush 2 2) (h4 : s.canPush 4 2) (ret : Word) (de : Bool) :
    ∃ t, s.interruptSequence n ret de = .ok t ∧ s.interrupted n ret de t := by
  have room : s.checkFrame 3 = .ok () := State.checkFrame_ok fun
    | 0, _ => h
    | 1, _ => h2
    | 2, _ => h4
  obtain ⟨u, u2, u3, push, push2, push3, pushed, image, selector, top, frame⟩ :=
    State.push_three_words (s := s.drew 7) hwf h h2 h4 (s.flags.image de s.draws) s.segs.cs ret
  obtain ⟨segs, flags, control⟩ :=
    pushed.enterHandler (s.mem.read (4 * n.toNat + 2) .word) (s.mem.read (4 * n.toNat) .word)
  refine ⟨_, (bind_of_ok (State.vector_ok hv)).trans ((bind_of_ok room).trans ((bind_of_ok push).trans
    ((bind_of_ok push2).trans (bind_of_ok push3)))), pushed.regs, segs, rfl, flags, control, rfl, top, selector, ?_,
    frame⟩
  have described : s.flags.describedIn de (s.flags.image de s.draws) := EFlags.image_bits s.flags de s.draws
  rw [← image] at described
  exact described

/-- Taking an interrupt, with its table entry in plain memory and room for its frame (R402). -/
theorem State.interrupt_ok {s : State} {n : Byte} (hwf : s.mem.wf = true) (hv : s.plain (4 * n.toNat) 4)
    (h : s.canPush 0 2) (h2 : s.canPush 2 2) (h4 : s.canPush 4 2) (ret : Word) (de : Bool) :
    ∃ t, s.interrupt n ret de = .next t ∧ s.interrupted n ret de t := by
  obtain ⟨t, sequence, taken⟩ := State.interruptSequence_ok hwf hv h h2 h4 ret de
  exact ⟨t, by simp only [State.interrupt, sequence], taken⟩

/-- Settles O55: `State.interrupted` holds after the three pushes and the entry of the handler. -/
theorem interruptSequenceFrame : Obligations.InterruptSequenceFrame := by
  intro s n ret de hwf hv h h2 h4
  exact State.interrupt_ok hwf hv h h2 h4 ret de

/-! ## IRET after an interrupt -/

/-- An offset of the segment is what its low word says (R42). -/
theorem low_word_of_lt {x : Dword} (h : x.toNat < 0x10000) : (x.extractLsb' 0 16).setWidth 32 = x := by
  apply BitVec.eq_of_toNat_eq
  simp only [BitVec.toNat_setWidth, BitVec.extractLsb'_toNat, Nat.shiftRight_eq_div_pow]
  omega

/-- The IRET of a handler whose interrupt was no divide error. -/
theorem State.interrupted.returns {s t : State} {n : Byte} {ret : Word} (taken : s.interrupted n ret false t)
    (h : s.canPush 0 2) (h2 : s.canPush 2 2) (h4 : s.canPush 4 2) (p : Prefixes) :
    ∃ (u : State) (image : Word), exec (.iret p) t = .next u ∧ u.regs = s.regs ∧ u.segs = s.segs ∧
      u.eip = ret.setWidth 32 ∧ u.flags = t.flags.loadFlags image ∧ s.flags.describedIn false image := by
  obtain ⟨regs, segs, -, -, ⟨present, mmio, -⟩, -, top, selector, described, -⟩ := taken
  have stack : s.StackBelow 6 t := ⟨regs, by rw [segs], present, mmio⟩
  have ip : t.stackWord 0 = ret := (State.StackBelow.stackWord (j := 0) stack).trans top
  have cs : t.stackWord 2 = s.segs.cs := (State.StackBelow.stackWord (j := 2) (k := 4) stack).trans selector
  have flags : t.stackWord 4 = t.mem.read (s.linear .ss (s.below 2)) .word :=
    State.StackBelow.stackWord (j := 4) (k := 2) stack
  obtain ⟨u, effect, uregs, usegs, ueip, uflags, -⟩ := State.returnFromInterrupt_ok
    (State.StackBelow.canPop (j := 0) (k := 4) stack h4) (State.StackBelow.canPop (j := 2) (k := 2) stack h2)
    (State.StackBelow.canPop (j := 4) (k := 0) stack h)
  refine ⟨u, _, congrArg t.retireJump effect, uregs.trans stack.poppedRegs, ?_,
    ueip.trans (congrArg (BitVec.setWidth 32) ip), uflags, ?_⟩
  · rw [usegs, segs, cs]
  · rw [flags]
    exact described

/-- Settles O56: the words IRET pops are those the interrupt sequence pushed, by `State.StackBelow`. -/
theorem interruptThenIretRestores : Obligations.InterruptThenIretRestores := by
  intro s t n p hwf heip hv h h2 h4 interrupt
  have taken := of_next_eq interrupt (State.interrupt_ok hwf hv h h2 h4 _ _)
  obtain ⟨u, image, run, regs, segs, eip, flags, tf, ief, status⟩ := taken.returns h h2 h4 p
  obtain ⟨cf, pf, af, zf, sf, ovf⟩ := status rfl
  refine ⟨u, run, regs, segs, eip.trans (low_word_of_lt heip), ?_⟩
  rw [flags]
  exact ⟨cf, pf, af, zf, sf, tf, ief, ovf⟩

end Sys2Proof.Machine
end

section
/-!
PROOFS. A signalled RESET (R450, R452, R453), and the adders of memory operands in the worked examples of Appendix D
(R472 to R474).
-/

namespace Sys2Proof.Machine

/-! ## RESET at a boundary -/

/-- RESET goes before everything else at a boundary, shutdown included (D6). -/
theorem step_of_reset {s : State} (signalled : s.resetSignal = true) : step s = .next s.afterReset := by
  simp [step, signalled]

/-- Settles O6: the step is `State.afterReset`, whose flags are those of this model's INIT_STATE after RESET. -/
theorem resetSignalLeavesShutdown : Obligations.ResetSignalLeavesShutdown := by
  intro s signalled
  obtain ⟨cf, pf, af, zf, sf, tf, ief, ovf⟩ := resetClearsDescribedFlags InitState.default
  exact ⟨s.afterReset, step_of_reset signalled, rfl, rfl, rfl, rfl, ief, tf, cf, pf, af, zf, sf, ovf⟩

/-! ## The cost of memory operands -/

/-- A base register alone costs its access (R472). -/
theorem RM.cost_base32 (access : Nat) (r : Reg) : (RM.mem (.base32 r .none)).cost access = access := by
  simp only [RM.cost, Mem.cost, if_true, Nat.zero_add]

/-- A base register with a displacement costs the displacement too (R472). -/
theorem RM.cost_base32_disp (access : Nat) (r : Reg) {disp : Disp32} (h : disp ≠ .none) :
    (RM.mem (.base32 r disp)).cost access = displacementCost + access := by
  simp only [RM.cost, Mem.cost, if_neg h]

/-- An address that is a displacement alone costs that displacement (R472). -/
theorem RM.cost_abs32 (access : Nat) (d : Dword) :
    (RM.mem (.abs32 d)).cost access = displacementCost + access := rfl

/-- Settles O60: the examples on registers, immediates and control transfers are entries of the table, and each
example in memory is its base cost and the adders of its operand. -/
theorem timingExamples : Obligations.TimingExamples := by
  intro s n d rel p ebx dada dadaEbx
  have ebxCost (access : Nat) : ebx.cost access = access := RM.cost_base32 access .ebx
  have dadaCost (access : Nat) : dada.cost access = 2 + access := RM.cost_abs32 access d
  have dadaEbxCost (access : Nat) : dadaEbx.cost access = 2 + access :=
    RM.cost_base32_disp access .ebx Disp32.noConfusion
  refine ⟨rfl, rfl, ?addLoad, ?movStore, ?addStore, ?addDada, ?addDadaEbx, ?addStoreDadaEbx, rfl, rfl, ?lea, rfl,
    ?pop⟩
  case addLoad => exact congrArg (8 + ·) (ebxCost 5)
  case movStore => exact congrArg (8 + ·) (ebxCost 5)
  case addStore => exact congrArg (8 + ·) (ebxCost 7)
  case addDada => exact congrArg (8 + ·) (dadaCost 5)
  case addDadaEbx => exact congrArg (8 + ·) (dadaEbxCost 5)
  case addStoreDadaEbx => exact congrArg (8 + ·) (dadaEbxCost 7)
  case lea => exact congrArg (8 + ·) (dadaEbxCost 0)
  case pop => exact congrArg (10 + ·) (dadaEbxCost 5)

end Sys2Proof.Machine
end
